-- ==== Sys2Proof/Word.lean ====
section
/-! DEFINITION. The word types of the core (00_scope.md rules R9, R13): a byte is 8 bits, an address,
a register pair and an index register are 16 bits. -/

namespace Sys2Proof

/-- An 8-bit value, the spec's `u8` (rule R13). -/
abbrev Byte := BitVec 8

/-- A 16-bit value, the spec's `u16` (rule R13). -/
abbrev Word := BitVec 16

end Sys2Proof
end

