-- ==== Sys2Proof/Config.lean ====
section
/-! DEFINITION. What the spec leaves to the bus owner (00_scope.md rule R11, 20_memory.md rule R103):
the bus calls the core makes, and the two free values that stand for the answers of a bus owner
about which nothing is known. The other parameters of rule R11 are plain data: `eiDelay` and
`intAckByte` are fields of `State`, `resetRegs` is `ResetRegs` in Machine/State.lean. -/

namespace Sys2Proof

/-- One call of the bus interface, with the byte that was moved (20_memory.md rules R100, R102). -/
inductive BusCall where
  /-- `readByte(address)` and the byte the bus owner answered. -/
  | readByte (address : Word) (answer : Byte)
  /-- `writeByte(address, value)`. -/
  | writeByte (address : Word) (value : Byte)
  /-- `readPort(port)` and the byte the bus owner answered. -/
  | readPort (port : Word) (answer : Byte)
  /-- `writePort(port, value)`. -/
  | writePort (port : Word) (value : Byte)
deriving DecidableEq, Repr

/-- FREE VALUE (log entry 2). What the bus owner answers to a read of a memory address that it does not
hold as plain RAM, after the calls listed (newest first): rule R103 lets it be any byte. -/
opaque Config.foreignByte : List BusCall → Word → Byte

/-- FREE VALUE (log entry 3). What the bus owner answers to a read of a port for which the state lists no
answer, after the calls listed (newest first): rules R7 and R103 let it be any byte. -/
opaque Config.portByte : List BusCall → Word → Byte

end Sys2Proof
end

