-- ==== Sys2Proof/Machine/Bits.lean ====
section
/-! DEFINITION. The bit-field, byte-order and sign-extension helpers of 00_scope.md rules R12 and R13. -/

namespace Sys2Proof.Machine

/-- `hi(w) = w[15:8]`. -/
def hi (w : Word) : Byte := w.extractLsb' 8 8

/-- `lo(w) = w[7:0]`. -/
def lo (w : Word) : Byte := w.extractLsb' 0 8

/-- `w16(h, l) = h * 256 + l`. -/
def w16 (h l : Byte) : Word := h ++ l

/-- `sext_16(d)`: d read as two's complement. -/
def sext16 (d : Byte) : Word := d.signExtend 16

/-- `b ? m : 0`, the contribution of one flag. -/
def bitIf (b : Bool) (m : Byte) : Byte := if b then m else 0

/-- The opcode field `x = op[7:6]` (30_encoding.md rule R142). -/
def fieldX (op : Byte) : BitVec 2 := op.extractLsb' 6 2

/-- The opcode field `y = op[5:3]`. -/
def fieldY (op : Byte) : BitVec 3 := op.extractLsb' 3 3

/-- The opcode field `z = op[2:0]`. -/
def fieldZ (op : Byte) : BitVec 3 := op.extractLsb' 0 3

/-- The field `p = op[5:4] = y >> 1`, taken from y. -/
def fieldP (y : BitVec 3) : BitVec 2 := y.extractLsb' 1 2

/-- The field `q = op[3] = y & 1`, taken from y. -/
def fieldQ (y : BitVec 3) : Bool := y.getLsbD 0

/-- An opcode from its fields x, y, z. -/
def op8 (x : BitVec 2) (y z : BitVec 3) : Byte := x ++ y ++ z

/-- y from its fields p and q. -/
def yOf (p : BitVec 2) (q : BitVec 1) : BitVec 3 := p ++ q

end Sys2Proof.Machine
end

