-- ==== Sys2Proof/Syntax.lean ====
section
/-! DEFINITION. The instructions: one constructor of `Instr` for each row of spec/opcode_table.json, in the
table's order (30_encoding.md rule R161), over operand types that admit only the operands the rules
name. A field the table calls `ignored` is kept, so that every encoding has an instruction of its own. -/

namespace Sys2Proof

/-- The active index register P: IX under prefix DD, IY under prefix FD (rule R155). -/
inductive Idx where
  | ix | iy
deriving DecidableEq, Repr

/-- The byte of an index register an undocumented form names: PH or PL (10_state.md rule R43). -/
inductive Half where
  | high | low
deriving DecidableEq, Repr

/-- The registers of the field `r8[k]` but for code 6, the memory operand (rule R143). -/
inductive Reg8 where
  | b | c | d | e | h | l | a
deriving DecidableEq, Repr

/-- The registers of `r8[k]` under an index prefix, with H and L read as PH and PL (rule R155 (c)). -/
inductive HalfReg where
  | b | c | d | e | high | low | a
deriving DecidableEq, Repr

/-- The register pairs of the field `rp[p]` (rule R144). -/
inductive Pair where
  | bc | de | hl | sp
deriving DecidableEq, Repr

/-- The register pairs of `rp[p]` under an index prefix: code 2 is P itself (rule R155 (a)). -/
inductive IdxPair where
  | bc | de | self | sp
deriving DecidableEq, Repr

/-- The register pairs of the field `rp2[p]`, for PUSH and POP (rule R145). -/
inductive StackPair where
  | bc | de | hl | af
deriving DecidableEq, Repr

/-- The conditions of the field `cc[y]` (rule R146). -/
inductive Cond where
  | nz | z | nc | c | po | pe | p | m
deriving DecidableEq, Repr

/-- The four conditions JR has (rule R146). -/
inductive JrCond where
  | nz | z | nc | c
deriving DecidableEq, Repr

/-- One instruction, or one standalone prefix (rule R158). -/
inductive Instr where
  /-- `prefix DD/FD (standalone, next byte DD or FD)`: 44_general_cpu.md rule R387. -/
  | prefixThenIndex (x : Idx)
  /-- `prefix DD/FD (standalone, next byte ED)`: 44_general_cpu.md rule R387. -/
  | prefixThenEd (x : Idx)
  /-- `RLC (IX+d)`: 46_rotate_shift.md rule R437. -/
  | rlcMemIdx (x : Idx) (d : Byte)
  /-- `RLC (IX+d),r`: 46_rotate_shift.md rule R438. -/
  | rlcMemIdxCopy (x : Idx) (d : Byte) (r : Reg8)
  /-- `RRC (IX+d)`: 46_rotate_shift.md rule R441. -/
  | rrcMemIdx (x : Idx) (d : Byte)
  /-- `RRC (IX+d),r`: 46_rotate_shift.md rule R442. -/
  | rrcMemIdxCopy (x : Idx) (d : Byte) (r : Reg8)
  /-- `RL (IX+d)`: 46_rotate_shift.md rule R445. -/
  | rlMemIdx (x : Idx) (d : Byte)
  /-- `RL (IX+d),r`: 46_rotate_shift.md rule R446. -/
  | rlMemIdxCopy (x : Idx) (d : Byte) (r : Reg8)
  /-- `RR (IX+d)`: 46_rotate_shift.md rule R449. -/
  | rrMemIdx (x : Idx) (d : Byte)
  /-- `RR (IX+d),r`: 46_rotate_shift.md rule R450. -/
  | rrMemIdxCopy (x : Idx) (d : Byte) (r : Reg8)
  /-- `SLA (IX+d)`: 46_rotate_shift.md rule R453. -/
  | slaMemIdx (x : Idx) (d : Byte)
  /-- `SLA (IX+d),r`: 46_rotate_shift.md rule R454. -/
  | slaMemIdxCopy (x : Idx) (d : Byte) (r : Reg8)
  /-- `SRA (IX+d)`: 46_rotate_shift.md rule R457. -/
  | sraMemIdx (x : Idx) (d : Byte)
  /-- `SRA (IX+d),r`: 46_rotate_shift.md rule R458. -/
  | sraMemIdxCopy (x : Idx) (d : Byte) (r : Reg8)
  /-- `SLL (IX+d)`: 46_rotate_shift.md rule R461. -/
  | sllMemIdx (x : Idx) (d : Byte)
  /-- `SLL (IX+d),r`: 46_rotate_shift.md rule R462. -/
  | sllMemIdxCopy (x : Idx) (d : Byte) (r : Reg8)
  /-- `SRL (IX+d)`: 46_rotate_shift.md rule R465. -/
  | srlMemIdx (x : Idx) (d : Byte)
  /-- `SRL (IX+d),r`: 46_rotate_shift.md rule R466. -/
  | srlMemIdxCopy (x : Idx) (d : Byte) (r : Reg8)
  /-- `BIT b,(IX+d)`: 47_bit.md rule R482. -/
  | bitMemIdx (x : Idx) (d : Byte) (b : BitVec 3) (z : BitVec 3)
  /-- `RES b,(IX+d)`: 47_bit.md rule R485. -/
  | resMemIdx (x : Idx) (d : Byte) (b : BitVec 3)
  /-- `RES b,(IX+d),r`: 47_bit.md rule R486. -/
  | resMemIdxCopy (x : Idx) (d : Byte) (b : BitVec 3) (r : Reg8)
  /-- `SET b,(IX+d)`: 47_bit.md rule R489. -/
  | setMemIdx (x : Idx) (d : Byte) (b : BitVec 3)
  /-- `SET b,(IX+d),r`: 47_bit.md rule R490. -/
  | setMemIdxCopy (x : Idx) (d : Byte) (b : BitVec 3) (r : Reg8)
  /-- `LD IX,nn`: 41_load16.md rule R241. -/
  | ldIdxNn (x : Idx) (nn : Word)
  /-- `LD (nn),IX`: 41_load16.md rule R247. -/
  | ldMemNnIdx (x : Idx) (nn : Word)
  /-- `LD IX,(nn)`: 41_load16.md rule R244. -/
  | ldIdxMemNn (x : Idx) (nn : Word)
  /-- `INC IX`: 45_alu16.md rule R406. -/
  | incIdx (x : Idx)
  /-- `DEC IX`: 45_alu16.md rule R407. -/
  | decIdx (x : Idx)
  /-- `ADD IX,pp`: 45_alu16.md rule R403. -/
  | addIdxPp (x : Idx) (pp : IdxPair)
  /-- `INC (IX+d)`: 43_alu8.md rule R352. -/
  | incMemIdx (x : Idx) (d : Byte)
  /-- `DEC (IX+d)`: 43_alu8.md rule R356. -/
  | decMemIdx (x : Idx) (d : Byte)
  /-- `LD (IX+d),n`: 40_load8.md rule R213. -/
  | ldMemIdxN (x : Idx) (d : Byte) (n : Byte)
  /-- `INC IXH/IXL`: 43_alu8.md rule R353. -/
  | incHalf (x : Idx) (half : Half)
  /-- `DEC IXH/IXL`: 43_alu8.md rule R357. -/
  | decHalf (x : Idx) (half : Half)
  /-- `LD IXH/IXL,n`: 40_load8.md rule R215. -/
  | ldHalfN (x : Idx) (half : Half) (n : Byte)
  /-- `HALT (prefix ignored)`: 44_general_cpu.md rule R388. -/
  | haltIgnored (x : Idx)
  /-- `LD r,(IX+d)`: 40_load8.md rule R211. -/
  | ldRMemIdx (x : Idx) (r : Reg8) (d : Byte)
  /-- `LD (IX+d),r`: 40_load8.md rule R212. -/
  | ldMemIdxR (x : Idx) (d : Byte) (r : Reg8)
  /-- `LD r,r' (index halves, r = IXH/IXL)`: 40_load8.md rule R214. -/
  | ldHalfR (x : Idx) (half : Half) (r : HalfReg)
  /-- `LD r,r' (index halves, r' = IXH/IXL)`: 40_load8.md rule R214. -/
  | ldRHalf (x : Idx) (r : Reg8) (half : Half)
  /-- `ADD A,(IX+d)`: 43_alu8.md rule R313. -/
  | addAMemIdx (x : Idx) (d : Byte)
  /-- `ADD A,IXH/IXL`: 43_alu8.md rule R314. -/
  | addAHalf (x : Idx) (half : Half)
  /-- `ADC A,(IX+d)`: 43_alu8.md rule R318. -/
  | adcAMemIdx (x : Idx) (d : Byte)
  /-- `ADC A,IXH/IXL`: 43_alu8.md rule R319. -/
  | adcAHalf (x : Idx) (half : Half)
  /-- `SUB (IX+d)`: 43_alu8.md rule R323. -/
  | subMemIdx (x : Idx) (d : Byte)
  /-- `SUB IXH/IXL`: 43_alu8.md rule R324. -/
  | subHalf (x : Idx) (half : Half)
  /-- `SBC A,(IX+d)`: 43_alu8.md rule R328. -/
  | sbcAMemIdx (x : Idx) (d : Byte)
  /-- `SBC A,IXH/IXL`: 43_alu8.md rule R329. -/
  | sbcAHalf (x : Idx) (half : Half)
  /-- `AND (IX+d)`: 43_alu8.md rule R333. -/
  | andMemIdx (x : Idx) (d : Byte)
  /-- `AND IXH/IXL`: 43_alu8.md rule R334. -/
  | andHalf (x : Idx) (half : Half)
  /-- `XOR (IX+d)`: 43_alu8.md rule R338. -/
  | xorMemIdx (x : Idx) (d : Byte)
  /-- `XOR IXH/IXL`: 43_alu8.md rule R339. -/
  | xorHalf (x : Idx) (half : Half)
  /-- `OR (IX+d)`: 43_alu8.md rule R343. -/
  | orMemIdx (x : Idx) (d : Byte)
  /-- `OR IXH/IXL`: 43_alu8.md rule R344. -/
  | orHalf (x : Idx) (half : Half)
  /-- `CP (IX+d)`: 43_alu8.md rule R348. -/
  | cpMemIdx (x : Idx) (d : Byte)
  /-- `CP IXH/IXL`: 43_alu8.md rule R349. -/
  | cpHalf (x : Idx) (half : Half)
  /-- `PUSH IX`: 41_load16.md rule R251. -/
  | pushIdx (x : Idx)
  /-- `POP IX`: 41_load16.md rule R253. -/
  | popIdx (x : Idx)
  /-- `EX (SP),IX`: 42_exchange_block.md rule R274. -/
  | exSpIdx (x : Idx)
  /-- `JP (IX)`: 48_jump_call.md rule R517. -/
  | jpIdx (x : Idx)
  /-- `LD SP,IX`: 41_load16.md rule R249. -/
  | ldSpIdx (x : Idx)
  /-- `prefix ignored: DD/FD before any other opcode`: 44_general_cpu.md rule R388. -/
  | prefixIgnored (x : Idx) (base : Instr)
  /-- `RLC (HL)`: 46_rotate_shift.md rule R436. -/
  | rlcMemHl
  /-- `RLC r`: 46_rotate_shift.md rule R435. -/
  | rlcR (r : Reg8)
  /-- `RRC (HL)`: 46_rotate_shift.md rule R440. -/
  | rrcMemHl
  /-- `RRC r`: 46_rotate_shift.md rule R439. -/
  | rrcR (r : Reg8)
  /-- `RL (HL)`: 46_rotate_shift.md rule R444. -/
  | rlMemHl
  /-- `RL r`: 46_rotate_shift.md rule R443. -/
  | rlR (r : Reg8)
  /-- `RR (HL)`: 46_rotate_shift.md rule R448. -/
  | rrMemHl
  /-- `RR r`: 46_rotate_shift.md rule R447. -/
  | rrR (r : Reg8)
  /-- `SLA (HL)`: 46_rotate_shift.md rule R452. -/
  | slaMemHl
  /-- `SLA r`: 46_rotate_shift.md rule R451. -/
  | slaR (r : Reg8)
  /-- `SRA (HL)`: 46_rotate_shift.md rule R456. -/
  | sraMemHl
  /-- `SRA r`: 46_rotate_shift.md rule R455. -/
  | sraR (r : Reg8)
  /-- `SLL (HL)`: 46_rotate_shift.md rule R460. -/
  | sllMemHl
  /-- `SLL r`: 46_rotate_shift.md rule R459. -/
  | sllR (r : Reg8)
  /-- `SRL (HL)`: 46_rotate_shift.md rule R464. -/
  | srlMemHl
  /-- `SRL r`: 46_rotate_shift.md rule R463. -/
  | srlR (r : Reg8)
  /-- `BIT b,(HL)`: 47_bit.md rule R481. -/
  | bitMemHl (b : BitVec 3)
  /-- `BIT b,r`: 47_bit.md rule R480. -/
  | bitR (b : BitVec 3) (r : Reg8)
  /-- `RES b,(HL)`: 47_bit.md rule R484. -/
  | resMemHl (b : BitVec 3)
  /-- `RES b,r`: 47_bit.md rule R483. -/
  | resR (b : BitVec 3) (r : Reg8)
  /-- `SET b,(HL)`: 47_bit.md rule R488. -/
  | setMemHl (b : BitVec 3)
  /-- `SET b,r`: 47_bit.md rule R487. -/
  | setR (b : BitVec 3) (r : Reg8)
  /-- `IN F,(C)`: 49_io.md rule R552. -/
  | inFC
  /-- `IN r,(C)`: 49_io.md rule R551. -/
  | inRC (r : Reg8)
  /-- `OUT (C),0`: 49_io.md rule R555. -/
  | outCZero
  /-- `OUT (C),r`: 49_io.md rule R554. -/
  | outCR (r : Reg8)
  /-- `SBC HL,ss`: 45_alu16.md rule R402. -/
  | sbcHlSs (ss : Pair)
  /-- `ADC HL,ss`: 45_alu16.md rule R401. -/
  | adcHlSs (ss : Pair)
  /-- `LD (nn),dd`: 41_load16.md rule R246. -/
  | ldMemNnDd (dd : Pair) (nn : Word)
  /-- `LD dd,(nn)`: 41_load16.md rule R243. -/
  | ldDdMemNn (dd : Pair) (nn : Word)
  /-- `NEG`: 44_general_cpu.md rule R372. -/
  | neg (y : BitVec 3)
  /-- `RETI`: 48_jump_call.md rule R522. -/
  | reti
  /-- `RETN`: 48_jump_call.md rule R523. -/
  | retn (y : BitVec 3)
  /-- `IM 0`: 44_general_cpu.md rule R381. -/
  | im0 (y : BitVec 3)
  /-- `IM 1`: 44_general_cpu.md rule R382. -/
  | im1 (y : BitVec 1)
  /-- `IM 2`: 44_general_cpu.md rule R383. -/
  | im2 (y : BitVec 1)
  /-- `LD I,A`: 40_load8.md rule R218. -/
  | ldIA
  /-- `LD R,A`: 40_load8.md rule R219. -/
  | ldRA
  /-- `LD A,I`: 40_load8.md rule R216. -/
  | ldAI
  /-- `LD A,R`: 40_load8.md rule R217. -/
  | ldAR
  /-- `RRD`: 46_rotate_shift.md rule R468. -/
  | rrd
  /-- `RLD`: 46_rotate_shift.md rule R467. -/
  | rld
  /-- `LDI`: 42_exchange_block.md rule R276. -/
  | ldi
  /-- `LDIR`: 42_exchange_block.md rule R277. -/
  | ldir
  /-- `LDD`: 42_exchange_block.md rule R278. -/
  | ldd
  /-- `LDDR`: 42_exchange_block.md rule R279. -/
  | lddr
  /-- `CPI`: 42_exchange_block.md rule R280. -/
  | cpi
  /-- `CPIR`: 42_exchange_block.md rule R281. -/
  | cpir
  /-- `CPD`: 42_exchange_block.md rule R282. -/
  | cpd
  /-- `CPDR`: 42_exchange_block.md rule R283. -/
  | cpdr
  /-- `INI`: 49_io.md rule R557. -/
  | ini
  /-- `INIR`: 49_io.md rule R558. -/
  | inir
  /-- `IND`: 49_io.md rule R559. -/
  | ind
  /-- `INDR`: 49_io.md rule R560. -/
  | indr
  /-- `OUTI`: 49_io.md rule R561. -/
  | outi
  /-- `OTIR`: 49_io.md rule R562. -/
  | otir
  /-- `OUTD`: 49_io.md rule R563. -/
  | outd
  /-- `OTDR`: 49_io.md rule R564. -/
  | otdr
  /-- `NOP* (every other ED opcode)`: 44_general_cpu.md rule R386. -/
  | nopEd (op : Byte)
  /-- `NOP`: 44_general_cpu.md rule R375. -/
  | nop
  /-- `HALT`: 44_general_cpu.md rule R376. -/
  | halt
  /-- `LD r,(HL)`: 40_load8.md rule R202. -/
  | ldRMemHl (r : Reg8)
  /-- `LD (HL),r`: 40_load8.md rule R203. -/
  | ldMemHlR (r : Reg8)
  /-- `LD r,r'`: 40_load8.md rule R200. -/
  | ldRR (r r' : Reg8)
  /-- `LD (HL),n`: 40_load8.md rule R204. -/
  | ldMemHlN (n : Byte)
  /-- `LD r,n`: 40_load8.md rule R201. -/
  | ldRN (r : Reg8) (n : Byte)
  /-- `LD A,(BC)`: 40_load8.md rule R205. -/
  | ldAMemBc
  /-- `LD A,(DE)`: 40_load8.md rule R206. -/
  | ldAMemDe
  /-- `LD A,(nn)`: 40_load8.md rule R207. -/
  | ldAMemNn (nn : Word)
  /-- `LD (BC),A`: 40_load8.md rule R208. -/
  | ldMemBcA
  /-- `LD (DE),A`: 40_load8.md rule R209. -/
  | ldMemDeA
  /-- `LD (nn),A`: 40_load8.md rule R210. -/
  | ldMemNnA (nn : Word)
  /-- `LD HL,(nn)`: 41_load16.md rule R242. -/
  | ldHlMemNn (nn : Word)
  /-- `LD (nn),HL`: 41_load16.md rule R245. -/
  | ldMemNnHl (nn : Word)
  /-- `LD dd,nn`: 41_load16.md rule R240. -/
  | ldDdNn (dd : Pair) (nn : Word)
  /-- `LD SP,HL`: 41_load16.md rule R248. -/
  | ldSpHl
  /-- `PUSH qq`: 41_load16.md rule R250. -/
  | pushQq (qq : StackPair)
  /-- `POP qq`: 41_load16.md rule R252. -/
  | popQq (qq : StackPair)
  /-- `EX DE,HL`: 42_exchange_block.md rule R270. -/
  | exDeHl
  /-- `EX AF,AF'`: 42_exchange_block.md rule R271. -/
  | exAfAf
  /-- `EXX`: 42_exchange_block.md rule R272. -/
  | exx
  /-- `EX (SP),HL`: 42_exchange_block.md rule R273. -/
  | exSpHl
  /-- `ADD A,(HL)`: 43_alu8.md rule R312. -/
  | addAMemHl
  /-- `ADD A,r`: 43_alu8.md rule R310. -/
  | addAR (r : Reg8)
  /-- `ADD A,n`: 43_alu8.md rule R311. -/
  | addAN (n : Byte)
  /-- `ADC A,(HL)`: 43_alu8.md rule R317. -/
  | adcAMemHl
  /-- `ADC A,r`: 43_alu8.md rule R315. -/
  | adcAR (r : Reg8)
  /-- `ADC A,n`: 43_alu8.md rule R316. -/
  | adcAN (n : Byte)
  /-- `SUB (HL)`: 43_alu8.md rule R322. -/
  | subMemHl
  /-- `SUB r`: 43_alu8.md rule R320. -/
  | subR (r : Reg8)
  /-- `SUB n`: 43_alu8.md rule R321. -/
  | subN (n : Byte)
  /-- `SBC A,(HL)`: 43_alu8.md rule R327. -/
  | sbcAMemHl
  /-- `SBC A,r`: 43_alu8.md rule R325. -/
  | sbcAR (r : Reg8)
  /-- `SBC A,n`: 43_alu8.md rule R326. -/
  | sbcAN (n : Byte)
  /-- `AND (HL)`: 43_alu8.md rule R332. -/
  | andMemHl
  /-- `AND r`: 43_alu8.md rule R330. -/
  | andR (r : Reg8)
  /-- `AND n`: 43_alu8.md rule R331. -/
  | andN (n : Byte)
  /-- `XOR (HL)`: 43_alu8.md rule R337. -/
  | xorMemHl
  /-- `XOR r`: 43_alu8.md rule R335. -/
  | xorR (r : Reg8)
  /-- `XOR n`: 43_alu8.md rule R336. -/
  | xorN (n : Byte)
  /-- `OR (HL)`: 43_alu8.md rule R342. -/
  | orMemHl
  /-- `OR r`: 43_alu8.md rule R340. -/
  | orR (r : Reg8)
  /-- `OR n`: 43_alu8.md rule R341. -/
  | orN (n : Byte)
  /-- `CP (HL)`: 43_alu8.md rule R347. -/
  | cpMemHl
  /-- `CP r`: 43_alu8.md rule R345. -/
  | cpR (r : Reg8)
  /-- `CP n`: 43_alu8.md rule R346. -/
  | cpN (n : Byte)
  /-- `INC (HL)`: 43_alu8.md rule R351. -/
  | incMemHl
  /-- `INC r`: 43_alu8.md rule R350. -/
  | incR (r : Reg8)
  /-- `DEC (HL)`: 43_alu8.md rule R355. -/
  | decMemHl
  /-- `DEC r`: 43_alu8.md rule R354. -/
  | decR (r : Reg8)
  /-- `DAA`: 44_general_cpu.md rule R370. -/
  | daa
  /-- `CPL`: 44_general_cpu.md rule R371. -/
  | cpl
  /-- `CCF`: 44_general_cpu.md rule R373. -/
  | ccf
  /-- `SCF`: 44_general_cpu.md rule R374. -/
  | scf
  /-- `DI`: 44_general_cpu.md rule R377. -/
  | di
  /-- `EI`: 44_general_cpu.md rule R378. -/
  | ei
  /-- `ADD HL,ss`: 45_alu16.md rule R400. -/
  | addHlSs (ss : Pair)
  /-- `INC ss`: 45_alu16.md rule R404. -/
  | incSs (ss : Pair)
  /-- `DEC ss`: 45_alu16.md rule R405. -/
  | decSs (ss : Pair)
  /-- `RLCA`: 46_rotate_shift.md rule R430. -/
  | rlca
  /-- `RRCA`: 46_rotate_shift.md rule R431. -/
  | rrca
  /-- `RLA`: 46_rotate_shift.md rule R432. -/
  | rla
  /-- `RRA`: 46_rotate_shift.md rule R433. -/
  | rra
  /-- `JP nn`: 48_jump_call.md rule R511. -/
  | jpNn (nn : Word)
  /-- `JP cc,nn`: 48_jump_call.md rule R512. -/
  | jpCcNn (cc : Cond) (nn : Word)
  /-- `JR e`: 48_jump_call.md rule R513. -/
  | jrE (e : Byte)
  /-- `DJNZ e`: 48_jump_call.md rule R515. -/
  | djnzE (e : Byte)
  /-- `JR cc,e`: 48_jump_call.md rule R514. -/
  | jrCcE (cc : JrCond) (e : Byte)
  /-- `JP (HL)`: 48_jump_call.md rule R516. -/
  | jpHl
  /-- `CALL nn`: 48_jump_call.md rule R518. -/
  | callNn (nn : Word)
  /-- `CALL cc,nn`: 48_jump_call.md rule R519. -/
  | callCcNn (cc : Cond) (nn : Word)
  /-- `RET`: 48_jump_call.md rule R520. -/
  | ret
  /-- `RET cc`: 48_jump_call.md rule R521. -/
  | retCc (cc : Cond)
  /-- `RST p`: 48_jump_call.md rule R524. -/
  | rstP (p : BitVec 3)
  /-- `IN A,(n)`: 49_io.md rule R550. -/
  | inAN (n : Byte)
  /-- `OUT (n),A`: 49_io.md rule R553. -/
  | outNA (n : Byte)
deriving DecidableEq, Repr

end Sys2Proof
end

