-- ==== Sys2Proof/WellFormed.lean ====
section
/-! DEFINITION. Which terms of `Instr` an encoding stands for. The operand types already admit only the
operands the rules name; what is left to check is a field whose values are shared between two rows of
the table, and the instruction after an ignored prefix. -/

namespace Sys2Proof

/-- The ED opcodes that are the two-byte no-operation, as 44_general_cpu.md rule R386 lists them. -/
def edUndefined (op : Byte) : Bool :=
  let n := op.toNat
  n ≤ 0x3F || n = 0x77 || n = 0x7F || (0x80 ≤ n && n ≤ 0x9F) || (0xA4 ≤ n && n ≤ 0xA7) ||
    (0xAC ≤ n && n ≤ 0xAF) || (0xB4 ≤ n && n ≤ 0xB7) || (0xBC ≤ n && n ≤ 0xBF) || 0xC0 ≤ n

/-- A register an index prefix does not turn into a half of P. -/
def Reg8.plain (r : Reg8) : Bool := r ≠ .h && r ≠ .l

/-- The unprefixed instructions whose opcode an index prefix does not change, HALT apart, which has a row
of its own (30_encoding.md rules R155, R159). -/
def Instr.ignoresPrefix : Instr → Bool
  | .nop | .ldAMemBc | .ldAMemDe | .ldAMemNn _ | .ldMemBcA | .ldMemDeA | .ldMemNnA _ => true
  | .ldRR r r' => r.plain && r'.plain
  | .ldRN r _ | .incR r | .decR r => r.plain
  | .addAR r | .adcAR r | .subR r | .sbcAR r | .andR r | .xorR r | .orR r | .cpR r => r.plain
  | .addAN _ | .adcAN _ | .subN _ | .sbcAN _ | .andN _ | .xorN _ | .orN _ | .cpN _ => true
  | .ldDdNn dd _ => dd ≠ .hl
  | .incSs ss | .decSs ss => ss ≠ .hl
  | .pushQq qq | .popQq qq => qq ≠ .hl
  | .exDeHl | .exAfAf | .exx | .daa | .cpl | .ccf | .scf | .di | .ei => true
  | .rlca | .rrca | .rla | .rra => true
  | .jpNn _ | .jpCcNn _ _ | .jrE _ | .djnzE _ | .jrCcE _ _ => true
  | .callNn _ | .callCcNn _ _ | .ret | .retCc _ | .rstP _ | .inAN _ | .outNA _ => true
  | _ => false

/-- The check a term of `Instr` must pass to stand for an encoding: RETN is not RETI's word (rule R523),
IM 0 has y in 0, 1, 4, 5 (rule R381), the other ED opcodes are no-operations (rule R386), a load of a
half into a register names a register that is not itself a half (rule R214), and an ignored prefix
stands before an instruction it does not change (rule R159). -/
def Instr.wf : Instr → Bool
  | .retn y => y ≠ 1
  | .im0 y => !y.getLsbD 1
  | .nopEd op => edUndefined op
  | .ldRHalf _ r _ => r.plain
  | .prefixIgnored _ base => base.ignoresPrefix
  | _ => true

end Sys2Proof
end

