-- ==== Sys2Proof/Decode.lean ====
section
/-! DEFINITION. Decoding (30_encoding.md rules R140 to R160): the five-state prefix machine as a tree that
asks for one byte after another, a decoder of byte lists over it, and the encoder written from the same
encodings. No byte sequence is illegal (rule R157): decoding a list fails only where the list ends
before its first instruction does. -/

namespace Sys2Proof

open Sys2Proof.Machine (hi lo w16 fieldX fieldY fieldZ fieldP fieldQ op8 yOf)

/-- The states of the decode machine (rules R56, R151). -/
inductive DecodeState where
  | base
  | prefixCb
  | prefixEd
  | prefixIdx (p : Idx)
  | prefixIdxCb (p : Idx)
deriving DecidableEq, Repr

/-- A decode in progress. -/
inductive Dec where
  /-- The bytes read are the instruction. -/
  | done (i : Instr)
  /-- The bytes read but for the last are the instruction: the last was read to classify it and is not
  consumed (rule R158). -/
  | unread (i : Instr)
  /-- In decode state `st` one more byte is needed. -/
  | more (st : DecodeState) (k : Byte → Dec)

/-- Why a list of bytes has no first instruction. -/
inductive DecodeError where
  /-- The list ends before the instruction does. -/
  | bytesMissing
deriving DecidableEq, Repr

/-! ### The fields of an opcode -/

/-- `r8[k]` of rule R143: `none` is code 6, the memory operand. -/
def Reg8.ofCode (k : BitVec 3) : Option Reg8 :=
  match k.toNat with
  | 0 => some .b
  | 1 => some .c
  | 2 => some .d
  | 3 => some .e
  | 4 => some .h
  | 5 => some .l
  | 6 => none
  | _ => some .a

/-- The code of a register in `r8` (rule R143). -/
def Reg8.code : Reg8 → BitVec 3
  | .b => 0 | .c => 1 | .d => 2 | .e => 3 | .h => 4 | .l => 5 | .a => 7

/-- `s(r8[k])` under an index prefix (rules R155 (c), R214). -/
def HalfReg.ofCode (k : BitVec 3) : Option HalfReg :=
  match k.toNat with
  | 0 => some .b
  | 1 => some .c
  | 2 => some .d
  | 3 => some .e
  | 4 => some .high
  | 5 => some .low
  | 6 => none
  | _ => some .a

/-- The code of `s(r)` in `r8` (rules R155 (c), R214). -/
def HalfReg.code : HalfReg → BitVec 3
  | .b => 0 | .c => 1 | .d => 2 | .e => 3 | .high => 4 | .low => 5 | .a => 7

/-- The half of P that a register code names under an index prefix (rule R155 (c)). -/
def Half.ofCode (k : BitVec 3) : Option Half :=
  match k.toNat with
  | 4 => some .high
  | 5 => some .low
  | _ => none

/-- The register code that names a half of P (rule R155 (c)). -/
def Half.code : Half → BitVec 3
  | .high => 4 | .low => 5

/-- `rp[p]` of rule R144. -/
def Pair.ofCode (p : BitVec 2) : Pair :=
  match p.toNat with
  | 0 => .bc
  | 1 => .de
  | 2 => .hl
  | _ => .sp

/-- The code of a pair in `rp` (rule R144). -/
def Pair.code : Pair → BitVec 2
  | .bc => 0 | .de => 1 | .hl => 2 | .sp => 3

/-- `rp[p]` under an index prefix (rules R144, R403). -/
def IdxPair.ofCode (p : BitVec 2) : IdxPair :=
  match p.toNat with
  | 0 => .bc
  | 1 => .de
  | 2 => .self
  | _ => .sp

/-- The code of a pair in `rp` under an index prefix (rules R144, R403). -/
def IdxPair.code : IdxPair → BitVec 2
  | .bc => 0 | .de => 1 | .self => 2 | .sp => 3

/-- `rp2[p]` of rule R145. -/
def StackPair.ofCode (p : BitVec 2) : StackPair :=
  match p.toNat with
  | 0 => .bc
  | 1 => .de
  | 2 => .hl
  | _ => .af

/-- The code of a pair in `rp2` (rule R145). -/
def StackPair.code : StackPair → BitVec 2
  | .bc => 0 | .de => 1 | .hl => 2 | .af => 3

/-- `cc[y]` of rule R146. -/
def Cond.ofCode (y : BitVec 3) : Cond :=
  match y.toNat with
  | 0 => .nz
  | 1 => .z
  | 2 => .nc
  | 3 => .c
  | 4 => .po
  | 5 => .pe
  | 6 => .p
  | _ => .m

/-- The code of a condition in `cc` (rule R146). -/
def Cond.code : Cond → BitVec 3
  | .nz => 0 | .z => 1 | .nc => 2 | .c => 3 | .po => 4 | .pe => 5 | .p => 6 | .m => 7

/-- `cc[y-4]` for y in 4 to 7, the conditions of JR (rules R146, R514). -/
def JrCond.ofCode (y : BitVec 3) : JrCond :=
  match y.toNat with
  | 4 => .nz
  | 5 => .z
  | 6 => .nc
  | _ => .c

/-- The y of a condition of JR (rules R146, R514). -/
def JrCond.code : JrCond → BitVec 3
  | .nz => 4 | .z => 5 | .nc => 6 | .c => 7

/-- The prefix byte of an index register (rule R155). -/
def Idx.prefixByte : Idx → Byte
  | .ix => 0xDD
  | .iy => 0xFD

/-! ### The families that share a field -/

/-- `alu[y] r` (rule R147). -/
def aluR (y : BitVec 3) (r : Reg8) : Instr :=
  match y.toNat with
  | 0 => .addAR r
  | 1 => .adcAR r
  | 2 => .subR r
  | 3 => .sbcAR r
  | 4 => .andR r
  | 5 => .xorR r
  | 6 => .orR r
  | _ => .cpR r

/-- `alu[y] n` (rule R147). -/
def aluN (y : BitVec 3) (n : Byte) : Instr :=
  match y.toNat with
  | 0 => .addAN n
  | 1 => .adcAN n
  | 2 => .subN n
  | 3 => .sbcAN n
  | 4 => .andN n
  | 5 => .xorN n
  | 6 => .orN n
  | _ => .cpN n

/-- `alu[y] (HL)` (rule R147). -/
def aluMemHl (y : BitVec 3) : Instr :=
  match y.toNat with
  | 0 => .addAMemHl
  | 1 => .adcAMemHl
  | 2 => .subMemHl
  | 3 => .sbcAMemHl
  | 4 => .andMemHl
  | 5 => .xorMemHl
  | 6 => .orMemHl
  | _ => .cpMemHl

/-- `alu[y] (P+d)` (rules R147, R155 (b)). -/
def aluMemIdx (y : BitVec 3) (x : Idx) (d : Byte) : Instr :=
  match y.toNat with
  | 0 => .addAMemIdx x d
  | 1 => .adcAMemIdx x d
  | 2 => .subMemIdx x d
  | 3 => .sbcAMemIdx x d
  | 4 => .andMemIdx x d
  | 5 => .xorMemIdx x d
  | 6 => .orMemIdx x d
  | _ => .cpMemIdx x d

/-- `alu[y]` of a half of P (rules R147, R155 (c)). -/
def aluHalf (y : BitVec 3) (x : Idx) (half : Half) : Instr :=
  match y.toNat with
  | 0 => .addAHalf x half
  | 1 => .adcAHalf x half
  | 2 => .subHalf x half
  | 3 => .sbcAHalf x half
  | 4 => .andHalf x half
  | 5 => .xorHalf x half
  | 6 => .orHalf x half
  | _ => .cpHalf x half

/-- `rot[y] r` (rule R148). -/
def rotR (y : BitVec 3) (r : Reg8) : Instr :=
  match y.toNat with
  | 0 => .rlcR r
  | 1 => .rrcR r
  | 2 => .rlR r
  | 3 => .rrR r
  | 4 => .slaR r
  | 5 => .sraR r
  | 6 => .sllR r
  | _ => .srlR r

/-- `rot[y] (HL)` (rule R148). -/
def rotMemHl (y : BitVec 3) : Instr :=
  match y.toNat with
  | 0 => .rlcMemHl
  | 1 => .rrcMemHl
  | 2 => .rlMemHl
  | 3 => .rrMemHl
  | 4 => .slaMemHl
  | 5 => .sraMemHl
  | 6 => .sllMemHl
  | _ => .srlMemHl

/-- `rot[y] (P+d)` (rules R148, R156). -/
def rotMemIdx (y : BitVec 3) (x : Idx) (d : Byte) : Instr :=
  match y.toNat with
  | 0 => .rlcMemIdx x d
  | 1 => .rrcMemIdx x d
  | 2 => .rlMemIdx x d
  | 3 => .rrMemIdx x d
  | 4 => .slaMemIdx x d
  | 5 => .sraMemIdx x d
  | 6 => .sllMemIdx x d
  | _ => .srlMemIdx x d

/-- `rot[y] (P+d),r` (rules R148, R156). -/
def rotMemIdxCopy (y : BitVec 3) (x : Idx) (d : Byte) (r : Reg8) : Instr :=
  match y.toNat with
  | 0 => .rlcMemIdxCopy x d r
  | 1 => .rrcMemIdxCopy x d r
  | 2 => .rlMemIdxCopy x d r
  | 3 => .rrMemIdxCopy x d r
  | 4 => .slaMemIdxCopy x d r
  | 5 => .sraMemIdxCopy x d r
  | 6 => .sllMemIdxCopy x d r
  | _ => .srlMemIdxCopy x d r

/-- The block instruction of y in 4 to 7 and z in 0 to 3 (rule R154). -/
def blockInstr (y z : BitVec 3) : Instr :=
  match y.toNat, z.toNat with
  | 4, 0 => .ldi | 4, 1 => .cpi | 4, 2 => .ini | 4, _ => .outi
  | 5, 0 => .ldd | 5, 1 => .cpd | 5, 2 => .ind | 5, _ => .outd
  | 6, 0 => .ldir | 6, 1 => .cpir | 6, 2 => .inir | 6, _ => .otir
  | _, 0 => .lddr | _, 1 => .cpdr | _, 2 => .indr | _, _ => .otdr

/-! ### Operand bytes (rule R150) -/

/-- One operand byte, read in decode state `st`. -/
def Dec.imm8 (st : DecodeState) (f : Byte → Instr) : Dec := .more st fun n => .done (f n)

/-- A 16-bit operand, its low byte first (rule R150). -/
def Dec.imm16 (st : DecodeState) (f : Word → Instr) : Dec :=
  .more st fun l => .more st fun h => .done (f (w16 h l))

/-! ### The opcode tables -/

/-- Rule R152 with x = 0. `wrap` is the identity, or the marking of an ignored prefix (rule R159). -/
def baseX0 (st : DecodeState) (wrap : Instr → Instr) (y z : BitVec 3) : Dec :=
  match z.toNat with
  | 0 =>
    match y.toNat with
    | 0 => .done (wrap .nop)
    | 1 => .done (wrap .exAfAf)
    | 2 => .imm8 st fun e => wrap (.djnzE e)
    | 3 => .imm8 st fun e => wrap (.jrE e)
    | _ => .imm8 st fun e => wrap (.jrCcE (JrCond.ofCode y) e)
  | 1 =>
    if fieldQ y then .done (wrap (.addHlSs (Pair.ofCode (fieldP y))))
    else .imm16 st fun nn => wrap (.ldDdNn (Pair.ofCode (fieldP y)) nn)
  | 2 =>
    match y.toNat with
    | 0 => .done (wrap .ldMemBcA)
    | 1 => .done (wrap .ldAMemBc)
    | 2 => .done (wrap .ldMemDeA)
    | 3 => .done (wrap .ldAMemDe)
    | 4 => .imm16 st fun nn => wrap (.ldMemNnHl nn)
    | 5 => .imm16 st fun nn => wrap (.ldHlMemNn nn)
    | 6 => .imm16 st fun nn => wrap (.ldMemNnA nn)
    | _ => .imm16 st fun nn => wrap (.ldAMemNn nn)
  | 3 =>
    if fieldQ y then .done (wrap (.decSs (Pair.ofCode (fieldP y))))
    else .done (wrap (.incSs (Pair.ofCode (fieldP y))))
  | 4 =>
    match Reg8.ofCode y with
    | some r => .done (wrap (.incR r))
    | none => .done (wrap .incMemHl)
  | 5 =>
    match Reg8.ofCode y with
    | some r => .done (wrap (.decR r))
    | none => .done (wrap .decMemHl)
  | 6 =>
    match Reg8.ofCode y with
    | some r => .imm8 st fun n => wrap (.ldRN r n)
    | none => .imm8 st fun n => wrap (.ldMemHlN n)
  | _ =>
    match y.toNat with
    | 0 => .done (wrap .rlca)
    | 1 => .done (wrap .rrca)
    | 2 => .done (wrap .rla)
    | 3 => .done (wrap .rra)
    | 4 => .done (wrap .daa)
    | 5 => .done (wrap .cpl)
    | 6 => .done (wrap .scf)
    | _ => .done (wrap .ccf)

/-- Rule R152 with x = 1: LD r8[y],r8[z], and HALT where both name the memory operand. -/
def baseX1 (wrap : Instr → Instr) (y z : BitVec 3) : Dec :=
  match Reg8.ofCode y, Reg8.ofCode z with
  | some r, some r' => .done (wrap (.ldRR r r'))
  | some r, none => .done (wrap (.ldRMemHl r))
  | none, some r' => .done (wrap (.ldMemHlR r'))
  | none, none => .done (wrap .halt)

/-- Rule R152 with x = 2: alu[y] r8[z]. -/
def baseX2 (wrap : Instr → Instr) (y z : BitVec 3) : Dec :=
  match Reg8.ofCode z with
  | some r => .done (wrap (aluR y r))
  | none => .done (wrap (aluMemHl y))

/-- Rule R152 with x = 3. What the four prefix bytes do depends on where they stand (rule R151), so it is
given by `onCb`, `onDd`, `onEd` and `onFd`. -/
def baseX3 (onCb onDd onEd onFd : Dec) (st : DecodeState) (wrap : Instr → Instr)
    (y z : BitVec 3) : Dec :=
  match z.toNat with
  | 0 => .done (wrap (.retCc (Cond.ofCode y)))
  | 1 =>
    match y.toNat with
    | 1 => .done (wrap .ret)
    | 3 => .done (wrap .exx)
    | 5 => .done (wrap .jpHl)
    | 7 => .done (wrap .ldSpHl)
    | _ => .done (wrap (.popQq (StackPair.ofCode (fieldP y))))
  | 2 => .imm16 st fun nn => wrap (.jpCcNn (Cond.ofCode y) nn)
  | 3 =>
    match y.toNat with
    | 0 => .imm16 st fun nn => wrap (.jpNn nn)
    | 1 => onCb
    | 2 => .imm8 st fun n => wrap (.outNA n)
    | 3 => .imm8 st fun n => wrap (.inAN n)
    | 4 => .done (wrap .exSpHl)
    | 5 => .done (wrap .exDeHl)
    | 6 => .done (wrap .di)
    | _ => .done (wrap .ei)
  | 4 => .imm16 st fun nn => wrap (.callCcNn (Cond.ofCode y) nn)
  | 5 =>
    match y.toNat with
    | 1 => .imm16 st fun nn => wrap (.callNn nn)
    | 3 => onDd
    | 5 => onEd
    | 7 => onFd
    | _ => .done (wrap (.pushQq (StackPair.ofCode (fieldP y))))
  | 6 => .imm8 st fun n => wrap (aluN y n)
  | _ => .done (wrap (.rstP y))

/-- The unprefixed opcode map (rule R152). -/
def decBase (onCb onDd onEd onFd : Dec) (st : DecodeState) (wrap : Instr → Instr)
    (op : Byte) : Dec :=
  let y := fieldY op
  let z := fieldZ op
  match (fieldX op).toNat with
  | 0 => baseX0 st wrap y z
  | 1 => baseX1 wrap y z
  | 2 => baseX2 wrap y z
  | _ => baseX3 onCb onDd onEd onFd st wrap y z

/-- The instruction of an opcode after CB (rule R153). -/
def decCb (op : Byte) : Instr :=
  let y := fieldY op
  match (fieldX op).toNat, Reg8.ofCode (fieldZ op) with
  | 0, some r => rotR y r
  | 0, none => rotMemHl y
  | 1, some r => .bitR y r
  | 1, none => .bitMemHl y
  | 2, some r => .resR y r
  | 2, none => .resMemHl y
  | _, some r => .setR y r
  | _, none => .setMemHl y

/-- The opcodes after ED with x = 1 (rule R154); `op` is the whole opcode. -/
def edX1 (op : Byte) (y z : BitVec 3) : Dec :=
  match z.toNat with
  | 0 =>
    match Reg8.ofCode y with
    | some r => .done (.inRC r)
    | none => .done .inFC
  | 1 =>
    match Reg8.ofCode y with
    | some r => .done (.outCR r)
    | none => .done .outCZero
  | 2 =>
    if fieldQ y then .done (.adcHlSs (Pair.ofCode (fieldP y)))
    else .done (.sbcHlSs (Pair.ofCode (fieldP y)))
  | 3 =>
    if fieldQ y then .imm16 .prefixEd fun nn => .ldDdMemNn (Pair.ofCode (fieldP y)) nn
    else .imm16 .prefixEd fun nn => .ldMemNnDd (Pair.ofCode (fieldP y)) nn
  | 4 => .done (.neg y)
  | 5 => if y = 1 then .done .reti else .done (.retn y)
  | 6 =>
    match y.toNat with
    | 2 => .done (.im1 0)
    | 3 => .done (.im2 0)
    | 6 => .done (.im1 1)
    | 7 => .done (.im2 1)
    | _ => .done (.im0 y)
  | _ =>
    match y.toNat with
    | 0 => .done .ldIA
    | 1 => .done .ldRA
    | 2 => .done .ldAI
    | 3 => .done .ldAR
    | 4 => .done .rrd
    | 5 => .done .rld
    | _ => .done (.nopEd op)

/-- An opcode after ED (rule R154). -/
def decEd (op : Byte) : Dec :=
  let y := fieldY op
  let z := fieldZ op
  match (fieldX op).toNat with
  | 1 => edX1 op y z
  | 2 => if 4 ≤ y.toNat ∧ z.toNat ≤ 3 then .done (blockInstr y z) else .done (.nopEd op)
  | _ => .done (.nopEd op)

/-- The instruction of displacement d and opcode op after DD CB or FD CB (rule R156). -/
def decIdxCb (x : Idx) (d op : Byte) : Instr :=
  let y := fieldY op
  let z := fieldZ op
  match (fieldX op).toNat, Reg8.ofCode z with
  | 0, some r => rotMemIdxCopy y x d r
  | 0, none => rotMemIdx y x d
  | 1, _ => .bitMemIdx x d y z
  | 2, some r => .resMemIdxCopy x d y r
  | 2, none => .resMemIdx x d y
  | _, some r => .setMemIdxCopy x d y r
  | _, none => .setMemIdx x d y

/-- The opcodes with x = 0 that an index prefix changes (rule R155). -/
def idxX0 (x : Idx) (y z : BitVec 3) : Option Dec :=
  match y.toNat, z.toNat with
  | 4, 1 => some (.imm16 (.prefixIdx x) fun nn => .ldIdxNn x nn)
  | _, 1 => if fieldQ y then some (.done (.addIdxPp x (IdxPair.ofCode (fieldP y)))) else none
  | 4, 2 => some (.imm16 (.prefixIdx x) fun nn => .ldMemNnIdx x nn)
  | 5, 2 => some (.imm16 (.prefixIdx x) fun nn => .ldIdxMemNn x nn)
  | 4, 3 => some (.done (.incIdx x))
  | 5, 3 => some (.done (.decIdx x))
  | 4, 4 => some (.done (.incHalf x .high))
  | 5, 4 => some (.done (.incHalf x .low))
  | 6, 4 => some (.imm8 (.prefixIdx x) fun d => .incMemIdx x d)
  | 4, 5 => some (.done (.decHalf x .high))
  | 5, 5 => some (.done (.decHalf x .low))
  | 6, 5 => some (.imm8 (.prefixIdx x) fun d => .decMemIdx x d)
  | 4, 6 => some (.imm8 (.prefixIdx x) fun n => .ldHalfN x .high n)
  | 5, 6 => some (.imm8 (.prefixIdx x) fun n => .ldHalfN x .low n)
  | 6, 6 => some (.more (.prefixIdx x) fun d => .imm8 (.prefixIdx x) fun n => .ldMemIdxN x d n)
  | _, _ => none

/-- The opcodes with x = 1 that an index prefix changes (rule R155), and HALT, whose row with an ignored
prefix is its own. -/
def idxX1 (x : Idx) (y z : BitVec 3) : Option Dec :=
  match Reg8.ofCode y, Reg8.ofCode z with
  | none, none => some (.done (.haltIgnored x))
  | some r, none => some (.imm8 (.prefixIdx x) fun d => .ldRMemIdx x r d)
  | none, some r => some (.imm8 (.prefixIdx x) fun d => .ldMemIdxR x d r)
  | some r, some _ =>
    match Half.ofCode y, HalfReg.ofCode z, Half.ofCode z with
    | some h, some r', _ => some (.done (.ldHalfR x h r'))
    | none, _, some h => some (.done (.ldRHalf x r h))
    | _, _, _ => none

/-- The opcodes with x = 2 that an index prefix changes (rule R155). -/
def idxX2 (x : Idx) (y z : BitVec 3) : Option Dec :=
  match z.toNat with
  | 4 => some (.done (aluHalf y x .high))
  | 5 => some (.done (aluHalf y x .low))
  | 6 => some (.imm8 (.prefixIdx x) fun d => aluMemIdx y x d)
  | _ => none

/-- The opcodes with x = 3 that an index prefix changes (rule R155). -/
def idxX3 (x : Idx) (y z : BitVec 3) : Option Dec :=
  match y.toNat, z.toNat with
  | 4, 1 => some (.done (.popIdx x))
  | 5, 1 => some (.done (.jpIdx x))
  | 7, 1 => some (.done (.ldSpIdx x))
  | 4, 3 => some (.done (.exSpIdx x))
  | 4, 5 => some (.done (.pushIdx x))
  | _, _ => none

/-- What an opcode means after an index prefix, where the prefix changes it (rule R155). -/
def idxChanged (x : Idx) (op : Byte) : Option Dec :=
  let y := fieldY op
  let z := fieldZ op
  match (fieldX op).toNat with
  | 0 => idxX0 x y z
  | 1 => idxX1 x y z
  | 2 => idxX2 x y z
  | _ => idxX3 x y z

/-- The byte after an index prefix (rules R151, R155, R156, R158, R159). -/
def decIdx (x : Idx) (op : Byte) : Dec :=
  match idxChanged x op with
  | some dec => dec
  | none =>
    decBase (.more (.prefixIdxCb x) fun d => .more (.prefixIdxCb x) fun op' => .done (decIdxCb x d op'))
      (.unread (.prefixThenIndex x)) (.unread (.prefixThenEd x)) (.unread (.prefixThenIndex x))
      (.prefixIdx x) (.prefixIgnored x) op

/-- The decode of one instruction, from the state Base (rule R151). -/
def decStart : Dec :=
  .more .base fun b0 =>
    decBase (.more .prefixCb fun op => .done (decCb op))
      (.more (.prefixIdx .ix) (decIdx .ix)) (.more .prefixEd decEd) (.more (.prefixIdx .iy) (decIdx .iy))
      .base id b0

/-! ### Decoding a list of bytes -/

/-- Feeds the bytes of a list to a decode. `before` is the list as it was before the last byte read. -/
def Dec.onList : Dec → List Byte → List Byte → Except DecodeError (Instr × List Byte)
  | .done i, _, bs => .ok (i, bs)
  | .unread i, before, _ => .ok (i, before)
  | .more _ _, _, [] => .error .bytesMissing
  | .more _ k, _, b :: bs => (k b).onList (b :: bs) bs

/-- The first instruction of a list of bytes, and the bytes after it. -/
def decode (bs : List Byte) : Except DecodeError (Instr × List Byte) := decStart.onList bs bs

/-- The bytes of a number, byte 0 its least significant (the numbering of spec/opcode_table.json). -/
def bytesOf : Nat → Nat → List Byte
  | 0, _ => []
  | k + 1, w => BitVec.ofNat 8 w :: bytesOf k (w / 256)

/-- The four bytes an instruction word stands for: the table's bits, and zeros above them. -/
def wordBytes (nbits w : Nat) : List Byte := bytesOf 4 (w % 2 ^ nbits)

/-- The instruction the decoder reads from an instruction whose bits are w. -/
def decodeTableWord (nbits w : Nat) : Option Instr :=
  match decode (wordBytes nbits w) with
  | .ok (i, _) => some i
  | .error _ => none

/-! ### The encoder -/

/-- The bytes of an instruction (rules R141, R152 to R159). For a standalone prefix they are the prefix
byte alone: the byte it was classified by belongs to the next instruction (rule R158). -/
def encode : Instr → List Byte
  | .prefixThenIndex x => [x.prefixByte]
  | .prefixThenEd x => [x.prefixByte]
  | .rlcMemIdx x d => [x.prefixByte, 0xCB, d, op8 0 0 6]
  | .rlcMemIdxCopy x d r => [x.prefixByte, 0xCB, d, op8 0 0 r.code]
  | .rrcMemIdx x d => [x.prefixByte, 0xCB, d, op8 0 1 6]
  | .rrcMemIdxCopy x d r => [x.prefixByte, 0xCB, d, op8 0 1 r.code]
  | .rlMemIdx x d => [x.prefixByte, 0xCB, d, op8 0 2 6]
  | .rlMemIdxCopy x d r => [x.prefixByte, 0xCB, d, op8 0 2 r.code]
  | .rrMemIdx x d => [x.prefixByte, 0xCB, d, op8 0 3 6]
  | .rrMemIdxCopy x d r => [x.prefixByte, 0xCB, d, op8 0 3 r.code]
  | .slaMemIdx x d => [x.prefixByte, 0xCB, d, op8 0 4 6]
  | .slaMemIdxCopy x d r => [x.prefixByte, 0xCB, d, op8 0 4 r.code]
  | .sraMemIdx x d => [x.prefixByte, 0xCB, d, op8 0 5 6]
  | .sraMemIdxCopy x d r => [x.prefixByte, 0xCB, d, op8 0 5 r.code]
  | .sllMemIdx x d => [x.prefixByte, 0xCB, d, op8 0 6 6]
  | .sllMemIdxCopy x d r => [x.prefixByte, 0xCB, d, op8 0 6 r.code]
  | .srlMemIdx x d => [x.prefixByte, 0xCB, d, op8 0 7 6]
  | .srlMemIdxCopy x d r => [x.prefixByte, 0xCB, d, op8 0 7 r.code]
  | .bitMemIdx x d b z => [x.prefixByte, 0xCB, d, op8 1 b z]
  | .resMemIdx x d b => [x.prefixByte, 0xCB, d, op8 2 b 6]
  | .resMemIdxCopy x d b r => [x.prefixByte, 0xCB, d, op8 2 b r.code]
  | .setMemIdx x d b => [x.prefixByte, 0xCB, d, op8 3 b 6]
  | .setMemIdxCopy x d b r => [x.prefixByte, 0xCB, d, op8 3 b r.code]
  | .ldIdxNn x nn => [x.prefixByte, 0x21, lo nn, hi nn]
  | .ldMemNnIdx x nn => [x.prefixByte, 0x22, lo nn, hi nn]
  | .ldIdxMemNn x nn => [x.prefixByte, 0x2A, lo nn, hi nn]
  | .incIdx x => [x.prefixByte, 0x23]
  | .decIdx x => [x.prefixByte, 0x2B]
  | .addIdxPp x pp => [x.prefixByte, op8 0 (yOf pp.code 1) 1]
  | .incMemIdx x d => [x.prefixByte, 0x34, d]
  | .decMemIdx x d => [x.prefixByte, 0x35, d]
  | .ldMemIdxN x d n => [x.prefixByte, 0x36, d, n]
  | .incHalf x half => [x.prefixByte, op8 0 half.code 4]
  | .decHalf x half => [x.prefixByte, op8 0 half.code 5]
  | .ldHalfN x half n => [x.prefixByte, op8 0 half.code 6, n]
  | .haltIgnored x => [x.prefixByte, 0x76]
  | .ldRMemIdx x r d => [x.prefixByte, op8 1 r.code 6, d]
  | .ldMemIdxR x d r => [x.prefixByte, op8 1 6 r.code, d]
  | .ldHalfR x half r => [x.prefixByte, op8 1 half.code r.code]
  | .ldRHalf x r half => [x.prefixByte, op8 1 r.code half.code]
  | .addAMemIdx x d => [x.prefixByte, op8 2 0 6, d]
  | .addAHalf x half => [x.prefixByte, op8 2 0 half.code]
  | .adcAMemIdx x d => [x.prefixByte, op8 2 1 6, d]
  | .adcAHalf x half => [x.prefixByte, op8 2 1 half.code]
  | .subMemIdx x d => [x.prefixByte, op8 2 2 6, d]
  | .subHalf x half => [x.prefixByte, op8 2 2 half.code]
  | .sbcAMemIdx x d => [x.prefixByte, op8 2 3 6, d]
  | .sbcAHalf x half => [x.prefixByte, op8 2 3 half.code]
  | .andMemIdx x d => [x.prefixByte, op8 2 4 6, d]
  | .andHalf x half => [x.prefixByte, op8 2 4 half.code]
  | .xorMemIdx x d => [x.prefixByte, op8 2 5 6, d]
  | .xorHalf x half => [x.prefixByte, op8 2 5 half.code]
  | .orMemIdx x d => [x.prefixByte, op8 2 6 6, d]
  | .orHalf x half => [x.prefixByte, op8 2 6 half.code]
  | .cpMemIdx x d => [x.prefixByte, op8 2 7 6, d]
  | .cpHalf x half => [x.prefixByte, op8 2 7 half.code]
  | .pushIdx x => [x.prefixByte, 0xE5]
  | .popIdx x => [x.prefixByte, 0xE1]
  | .exSpIdx x => [x.prefixByte, 0xE3]
  | .jpIdx x => [x.prefixByte, 0xE9]
  | .ldSpIdx x => [x.prefixByte, 0xF9]
  | .prefixIgnored x base => x.prefixByte :: encode base
  | .rlcMemHl => [0xCB, op8 0 0 6]
  | .rlcR r => [0xCB, op8 0 0 r.code]
  | .rrcMemHl => [0xCB, op8 0 1 6]
  | .rrcR r => [0xCB, op8 0 1 r.code]
  | .rlMemHl => [0xCB, op8 0 2 6]
  | .rlR r => [0xCB, op8 0 2 r.code]
  | .rrMemHl => [0xCB, op8 0 3 6]
  | .rrR r => [0xCB, op8 0 3 r.code]
  | .slaMemHl => [0xCB, op8 0 4 6]
  | .slaR r => [0xCB, op8 0 4 r.code]
  | .sraMemHl => [0xCB, op8 0 5 6]
  | .sraR r => [0xCB, op8 0 5 r.code]
  | .sllMemHl => [0xCB, op8 0 6 6]
  | .sllR r => [0xCB, op8 0 6 r.code]
  | .srlMemHl => [0xCB, op8 0 7 6]
  | .srlR r => [0xCB, op8 0 7 r.code]
  | .bitMemHl b => [0xCB, op8 1 b 6]
  | .bitR b r => [0xCB, op8 1 b r.code]
  | .resMemHl b => [0xCB, op8 2 b 6]
  | .resR b r => [0xCB, op8 2 b r.code]
  | .setMemHl b => [0xCB, op8 3 b 6]
  | .setR b r => [0xCB, op8 3 b r.code]
  | .inFC => [0xED, 0x70]
  | .inRC r => [0xED, op8 1 r.code 0]
  | .outCZero => [0xED, 0x71]
  | .outCR r => [0xED, op8 1 r.code 1]
  | .sbcHlSs ss => [0xED, op8 1 (yOf ss.code 0) 2]
  | .adcHlSs ss => [0xED, op8 1 (yOf ss.code 1) 2]
  | .ldMemNnDd dd nn => [0xED, op8 1 (yOf dd.code 0) 3, lo nn, hi nn]
  | .ldDdMemNn dd nn => [0xED, op8 1 (yOf dd.code 1) 3, lo nn, hi nn]
  | .neg y => [0xED, op8 1 y 4]
  | .reti => [0xED, 0x4D]
  | .retn y => [0xED, op8 1 y 5]
  | .im0 y => [0xED, op8 1 y 6]
  | .im1 y => [0xED, op8 1 (y ++ (2 : BitVec 2)) 6]
  | .im2 y => [0xED, op8 1 (y ++ (3 : BitVec 2)) 6]
  | .ldIA => [0xED, 0x47]
  | .ldRA => [0xED, 0x4F]
  | .ldAI => [0xED, 0x57]
  | .ldAR => [0xED, 0x5F]
  | .rrd => [0xED, 0x67]
  | .rld => [0xED, 0x6F]
  | .ldi => [0xED, 0xA0]
  | .ldir => [0xED, 0xB0]
  | .ldd => [0xED, 0xA8]
  | .lddr => [0xED, 0xB8]
  | .cpi => [0xED, 0xA1]
  | .cpir => [0xED, 0xB1]
  | .cpd => [0xED, 0xA9]
  | .cpdr => [0xED, 0xB9]
  | .ini => [0xED, 0xA2]
  | .inir => [0xED, 0xB2]
  | .ind => [0xED, 0xAA]
  | .indr => [0xED, 0xBA]
  | .outi => [0xED, 0xA3]
  | .otir => [0xED, 0xB3]
  | .outd => [0xED, 0xAB]
  | .otdr => [0xED, 0xBB]
  | .nopEd op => [0xED, op]
  | .nop => [0x00]
  | .halt => [0x76]
  | .ldRMemHl r => [op8 1 r.code 6]
  | .ldMemHlR r => [op8 1 6 r.code]
  | .ldRR r r' => [op8 1 r.code r'.code]
  | .ldMemHlN n => [0x36, n]
  | .ldRN r n => [op8 0 r.code 6, n]
  | .ldAMemBc => [0x0A]
  | .ldAMemDe => [0x1A]
  | .ldAMemNn nn => [0x3A, lo nn, hi nn]
  | .ldMemBcA => [0x02]
  | .ldMemDeA => [0x12]
  | .ldMemNnA nn => [0x32, lo nn, hi nn]
  | .ldHlMemNn nn => [0x2A, lo nn, hi nn]
  | .ldMemNnHl nn => [0x22, lo nn, hi nn]
  | .ldDdNn dd nn => [op8 0 (yOf dd.code 0) 1, lo nn, hi nn]
  | .ldSpHl => [0xF9]
  | .pushQq qq => [op8 3 (yOf qq.code 0) 5]
  | .popQq qq => [op8 3 (yOf qq.code 0) 1]
  | .exDeHl => [0xEB]
  | .exAfAf => [0x08]
  | .exx => [0xD9]
  | .exSpHl => [0xE3]
  | .addAMemHl => [op8 2 0 6]
  | .addAR r => [op8 2 0 r.code]
  | .addAN n => [op8 3 0 6, n]
  | .adcAMemHl => [op8 2 1 6]
  | .adcAR r => [op8 2 1 r.code]
  | .adcAN n => [op8 3 1 6, n]
  | .subMemHl => [op8 2 2 6]
  | .subR r => [op8 2 2 r.code]
  | .subN n => [op8 3 2 6, n]
  | .sbcAMemHl => [op8 2 3 6]
  | .sbcAR r => [op8 2 3 r.code]
  | .sbcAN n => [op8 3 3 6, n]
  | .andMemHl => [op8 2 4 6]
  | .andR r => [op8 2 4 r.code]
  | .andN n => [op8 3 4 6, n]
  | .xorMemHl => [op8 2 5 6]
  | .xorR r => [op8 2 5 r.code]
  | .xorN n => [op8 3 5 6, n]
  | .orMemHl => [op8 2 6 6]
  | .orR r => [op8 2 6 r.code]
  | .orN n => [op8 3 6 6, n]
  | .cpMemHl => [op8 2 7 6]
  | .cpR r => [op8 2 7 r.code]
  | .cpN n => [op8 3 7 6, n]
  | .incMemHl => [0x34]
  | .incR r => [op8 0 r.code 4]
  | .decMemHl => [0x35]
  | .decR r => [op8 0 r.code 5]
  | .daa => [0x27]
  | .cpl => [0x2F]
  | .ccf => [0x3F]
  | .scf => [0x37]
  | .di => [0xF3]
  | .ei => [0xFB]
  | .addHlSs ss => [op8 0 (yOf ss.code 1) 1]
  | .incSs ss => [op8 0 (yOf ss.code 0) 3]
  | .decSs ss => [op8 0 (yOf ss.code 1) 3]
  | .rlca => [0x07]
  | .rrca => [0x0F]
  | .rla => [0x17]
  | .rra => [0x1F]
  | .jpNn nn => [0xC3, lo nn, hi nn]
  | .jpCcNn cc nn => [op8 3 cc.code 2, lo nn, hi nn]
  | .jrE e => [0x18, e]
  | .djnzE e => [0x10, e]
  | .jrCcE cc e => [op8 0 cc.code 0, e]
  | .jpHl => [0xE9]
  | .callNn nn => [0xCD, lo nn, hi nn]
  | .callCcNn cc nn => [op8 3 cc.code 4, lo nn, hi nn]
  | .ret => [0xC9]
  | .retCc cc => [op8 3 cc.code 0]
  | .rstP p => [op8 3 p 7]
  | .inAN n => [0xDB, n]
  | .outNA n => [0xD3, n]

/-- Whether a byte is one of the four prefix bytes (rule R140). -/
def isPrefixByte (b : Byte) : Bool := b = 0xCB || b = 0xED || b = 0xDD || b = 0xFD

/-- The length of an instruction in bytes (rule R160). -/
def Instr.length (i : Instr) : Nat := (encode i).length

/-- The refresh advance of an instruction's step: one for each opcode or prefix byte fetched as an opcode,
so two where a prefix byte comes first, and one otherwise and for a standalone prefix (rule R162). -/
def Instr.m1Cycles : Instr → Nat
  | .prefixThenIndex _ => 1
  | .prefixThenEd _ => 1
  | i =>
    match encode i with
    | b0 :: _ => if isPrefixByte b0 then 2 else 1
    | [] => 1

/-- What must stand after a standalone prefix for it to be one (rule R158): a DD or FD byte, or an ED byte.
Nothing is asked of what follows another instruction. -/
def followedBy : Instr → List Byte → Bool
  | .prefixThenIndex _, b :: _ => b = 0xDD || b = 0xFD
  | .prefixThenEd _, b :: _ => b = 0xED
  | .prefixThenIndex _, [] => false
  | .prefixThenEd _, [] => false
  | _, _ => true

end Sys2Proof
end

