-- ==== Sys2Proof/Machine/State.lean ====
section
/-! DEFINITION. The state of the core (10_state.md rules R40 to R57), of the bus owner as far as the core can
tell (20_memory.md rules R100 to R103), the reset values (70_reset_and_hazards.md rules R700 to R703), and the
reasons a step can stop (60_exceptions.md rules R600, R601). -/

namespace Sys2Proof.Machine

/-- The eight 8-bit registers of one register set, F among them (rules R40, R44). -/
structure RegBank where
  a : Byte
  f : Byte
  b : Byte
  c : Byte
  d : Byte
  e : Byte
  h : Byte
  l : Byte
deriving DecidableEq, Repr

/-- The interrupt modes (rule R50): no other value can be held. -/
inductive IntMode where
  | im0 | im1 | im2
deriving DecidableEq, Repr

/-- The interrupt-inhibit latch (rule R52). -/
inductive Shadow where
  /-- Nothing is inhibited. -/
  | none
  /-- A maskable request is not accepted at the next boundary: the step was EI. -/
  | int
  /-- No request is accepted at the next boundary: the step was a standalone prefix. -/
  | all
deriving DecidableEq, Repr

/-- The bus owner, the parameter `Bus` of rule R103, as plain data. -/
structure Bus where
  /-- The bytes it holds as plain RAM, in the one canonical form of `Memory.wf`. -/
  ram : List Host.Cell
  /-- The address ranges (base, size) it does not hold as plain RAM: ROM, devices, unmapped addresses. A read
  there is answered by a free value and a write changes no RAM (log entry 2). -/
  foreign : List (Nat × Nat)
  /-- The answers it gives to port reads. A port not listed is answered by a free value (log entry 3). -/
  ports : List Host.Cell
  /-- The bus calls the core has made, newest first (rules R109, R110; log entry 4). -/
  log : List BusCall
deriving DecidableEq, Repr

/-- The whole machine between two steps. -/
structure State where
  /-- A F B C D E H L (rule R40). -/
  main : RegBank
  /-- The shadow set A' F' B' C' D' E' H' L' (rule R44). -/
  alt : RegBank
  /-- IX (rule R43). -/
  ix : Word
  /-- IY (rule R43). -/
  iy : Word
  /-- The stack pointer (rule R45). -/
  sp : Word
  /-- The program counter (rule R46). -/
  pc : Word
  /-- The interrupt vector register I (rule R47). -/
  i : Byte
  /-- The memory-refresh register R (rule R48). -/
  r : Byte
  /-- The maskable-interrupt-enable flag (rule R49). -/
  iff1 : Bool
  /-- Its backup flip-flop (rule R49). -/
  iff2 : Bool
  /-- The interrupt mode selector (rule R50). -/
  im : IntMode
  /-- Set by HALT (rule R51). -/
  halted : Bool
  /-- The interrupt-inhibit latch (rule R52). -/
  shadow : Shadow
  /-- The non-maskable request latch (rule R53). -/
  nmiPending : Bool
  /-- The maskable request line, the driver's (rule R54). -/
  intLine : Bool
  /-- The byte the interrupting device supplies, the driver's (rule R54). -/
  intAckByte : Byte
  /-- The T-state counter (rule R55). -/
  tstates : Nat
  /-- The state of the decode machine, Base at every boundary (rule R56). -/
  decode : DecodeState
  /-- The parameter of rule R706, fixed at construction (rule R11, decision D6). -/
  eiDelay : Bool
  /-- Memory, ports and the calls made on them. -/
  bus : Bus
deriving DecidableEq, Repr

/-- The reasons for a fault: none. The core has no fault state (rule R600): no opcode, no arithmetic result and
no address faults, so no constructor is needed and none is raised. -/
inductive Fault where
deriving DecidableEq, Repr

/-- The reasons for a refusal. -/
inductive Refusal where
  /-- Raised by an arm of `exec` whose instruction has no meaning yet; no arm does. Safe: the model stops. -/
  | notModelled (mnemonic : String)
  /-- Raised by `acceptInt`: a maskable interrupt accepted in mode 0 whose acknowledge byte is not an RST opcode
  (rules R601, R606). Safe: the spec refuses it, and the model stops. -/
  | mode0AckNotRst (ack : Byte)
  /-- Raised by `execBase` for an ill-formed term, an ignored prefix before an instruction that the prefix would
  change: no encoding stands for it and `step` never runs it. Safe: the model stops. -/
  | noSuchBase
deriving DecidableEq, Repr

/-- What a meaning answers. -/
abbrev Result := Host.Outcome State Fault Refusal

/-- The nineteen reset values the spec leaves open, the parameter `resetRegs` of rule R78. -/
structure ResetRegs where
  main : RegBank
  alt : RegBank
  ix : Word
  iy : Word
  sp : Word
deriving DecidableEq, Repr

/-- A register set of zeros. -/
def RegBank.zero : RegBank := ⟨0, 0, 0, 0, 0, 0, 0, 0⟩

/-- The instance of `resetRegs` that `State.reset` takes: every register 0 (DESIGN CHOICE, log entry 5). -/
def ResetRegs.zero : ResetRegs := ⟨.zero, .zero, 0, 0, 0⟩

/-- A bus owner with nothing stored: plain RAM everywhere and no port answer listed (DESIGN CHOICE, log
entry 1). -/
def Bus.empty : Bus := ⟨[], [], [], []⟩

/-- The core right after reset (rules R700, R703), with `resetRegs` all zero, the bus owner empty, no request
from the driver, and `eiDelay` at its default. -/
def State.reset : State where
  main := ResetRegs.zero.main
  alt := ResetRegs.zero.alt
  ix := ResetRegs.zero.ix
  iy := ResetRegs.zero.iy
  sp := ResetRegs.zero.sp
  pc := 0x0000
  i := 0x00
  r := 0x00
  iff1 := false
  iff2 := false
  im := .im0
  halted := false
  shadow := .none
  nmiPending := false
  intLine := false
  intAckByte := 0xFF
  tstates := 0
  decode := .base
  eiDelay := true
  bus := Bus.empty

end Sys2Proof.Machine
end

