-- ==== Sys2Proof/Machine/Ops.lean ====
section
/-! DEFINITION. The named operations: memory in its canonical form, the bus calls (20_memory.md rules R100 to
R106), the refresh advance and the cost of a step, taking an interrupt and returning from one
(60_exceptions.md rules R604 to R611). -/

namespace Sys2Proof.Machine

/-! ### RAM as a list of cells -/

/-- What a byte of RAM that nothing has written reads as (DESIGN CHOICE, log entry 1). -/
def Memory.unwritten : Byte := 0

/-- The byte a list of cells holds at an address. -/
def Memory.read : List Host.Cell → Nat → Byte
  | [], _ => Memory.unwritten
  | (k, v) :: m, a => if k = a then v else Memory.read m a

/-- A cell put in front, unless it holds what an unlisted address reads as. -/
def Memory.put (a : Nat) (v : Byte) (m : List Host.Cell) : List Host.Cell :=
  if v = Memory.unwritten then m else (a, v) :: m

/-- Writes a byte, keeping the canonical form. -/
def Memory.write : List Host.Cell → Nat → Byte → List Host.Cell
  | [], a, v => Memory.put a v []
  | (k, w) :: m, a, v =>
    if a < k then Memory.put a v ((k, w) :: m)
    else if a = k then Memory.put a v m
    else (k, w) :: Memory.write m a v

/-- Every address of the list is at least `n`, the addresses rise strictly and stay inside the address space,
and no cell holds what an unlisted address reads as. -/
def Memory.wfFrom : Nat → List Host.Cell → Bool
  | _, [] => true
  | n, (k, v) :: m => n ≤ k && k < 65536 && v ≠ Memory.unwritten && Memory.wfFrom (k + 1) m

/-- The canonical form of RAM. -/
def Memory.wf (m : List Host.Cell) : Bool := Memory.wfFrom 0 m

/-! ### The bus owner -/

/-- Whether an address lies in a range. -/
def inRange (a : Word) (r : Nat × Nat) : Bool := r.1 ≤ a.toNat && a.toNat < r.1 + r.2

/-- Whether the bus owner does not hold an address as plain RAM (rule R103). -/
def Bus.isForeign (b : Bus) (a : Word) : Bool := b.foreign.any (inRange a)

/-- The byte of plain RAM at an address. -/
def Bus.ramByte (b : Bus) (a : Word) : Byte := Memory.read b.ram a.toNat

/-- The answer to `readByte(a)` now. -/
def Bus.memAnswer (b : Bus) (a : Word) : Byte :=
  if b.isForeign a then Config.foreignByte b.log a else b.ramByte a

/-- The answer listed for a port. -/
def portListed : List Host.Cell → Nat → Option Byte
  | [], _ => none
  | (k, v) :: m, p => if k = p then some v else portListed m p

/-- The answer to `readPort(p)` now. -/
def Bus.portAnswer (b : Bus) (p : Word) : Byte :=
  match portListed b.ports p.toNat with
  | some v => v
  | none => Config.portByte b.log p

/-- One more call. -/
def Bus.called (b : Bus) (c : BusCall) : Bus := { b with log := c :: b.log }

/-- `writeByte(a, v)`: plain RAM takes the byte, a foreign address does what the bus owner likes (rule R103). -/
def Bus.writeByte (b : Bus) (a : Word) (v : Byte) : Bus :=
  { b with
    ram := if b.isForeign a then b.ram else Memory.write b.ram a.toNat v
    log := .writeByte a v :: b.log }

/-! ### Bus calls of the core (rules R100, R102) -/

/-- The value of `MemRead(a, 1)`. -/
def State.memByte (s : State) (a : Word) : Byte := s.bus.memAnswer a

/-- The state after `MemRead(a, 1)`. -/
def State.afterRead (s : State) (a : Word) : State :=
  { s with bus := s.bus.called (.readByte a (s.bus.memAnswer a)) }

/-- `MemWrite(a, 1, v)`. -/
def State.memWrite (a : Word) (v : Byte) (s : State) : State := { s with bus := s.bus.writeByte a v }

/-- The value of `PortRead(p)`. -/
def State.portByte (s : State) (p : Word) : Byte := s.bus.portAnswer p

/-- The state after `PortRead(p)`. -/
def State.afterPortRead (s : State) (p : Word) : State :=
  { s with bus := s.bus.called (.readPort p (s.bus.portAnswer p)) }

/-- `PortWrite(p, v)`. -/
def State.portWrite (p : Word) (v : Byte) (s : State) : State :=
  { s with bus := s.bus.called (.writePort p v) }

/-! ### Words (rules R104, R105): little-endian, the low byte first -/

/-- The value of `MemRead(a, 2)`. -/
def State.memWord (s : State) (a : Word) : Word := w16 ((s.afterRead a).memByte (a + 1)) (s.memByte a)

/-- The state after `MemRead(a, 2)`. -/
def State.afterReadWord (s : State) (a : Word) : State := (s.afterRead a).afterRead (a + 1)

/-- `MemWrite(a, 2, v)`. -/
def State.memWriteWord (a v : Word) (s : State) : State :=
  (s.memWrite a (lo v)).memWrite (a + 1) (hi v)

/-! ### The stack (rule R106) -/

/-- `push16(v)`: the high byte first, at the higher address. -/
def State.push16 (v : Word) (s : State) : State :=
  let s1 : State := ({ s with sp := s.sp - 1 } : State).memWrite (s.sp - 1) (hi v)
  ({ s1 with sp := s.sp - 2 } : State).memWrite (s.sp - 2) (lo v)

/-- The value of `pop16()`. -/
def State.popWord (s : State) : Word := s.memWord s.sp

/-- The state after `pop16()`. -/
def State.afterPop (s : State) : State := { s.afterReadWord s.sp with sp := s.sp + 2 }

/-! ### PC, R and the cost -/

/-- `PC <- a`. -/
def State.setPc (a : Word) (s : State) : State := { s with pc := a }

/-- `incR(k)`: bits 6..0 count, bit 7 stays (10_state.md rule R48). -/
def State.incR (k : Nat) (s : State) : State :=
  { s with r := (s.r &&& 0x80) ||| ((s.r + BitVec.ofNat 8 k) &&& 0x7F) }

/-- `cost(t)` (70_reset_and_hazards.md rule R711). -/
def State.cost (t : Nat) (s : State) : State := { s with tstates := s.tstates + t }

/-! ### Taking an interrupt and returning from one -/

/-- What every acceptance does: leave HALT, clear IFF1, advance R by one, push PC, go to the handler with
nothing inhibited (rules R604, R605, R610). IFF2 becomes `iff2`, and the handler's address is read after
the push. -/
def State.enterHandler (iff2 : Bool) (target : State → Word) (s : State) : State :=
  let s1 := (({ s with halted := false, iff1 := false, iff2 := iff2 } : State).incR 1).push16 s.pc
  { s1 with pc := target s1, shadow := .none }

/-- NMI acceptance (rule R604): IFF2 keeps its value, the vector is 0x0066. -/
def acceptNmi (s : State) : State :=
  ({ s.enterHandler s.iff2 (fun _ => 0x0066) with nmiPending := false } : State).cost 11

/-- Whether an acknowledge byte is an RST opcode (rule R606). -/
def isRst (ack : Byte) : Bool := ack &&& 0xC7 = 0xC7

/-- The address of the mode-2 vector, the acknowledge byte unmasked (rule R608). -/
def State.vectorAddress (s : State) : Word := w16 s.i s.intAckByte

/-- Maskable acceptance (rules R605 to R608): IFF2 is cleared with IFF1. In mode 2 the vector is read after the
two stack writes. -/
def acceptInt (s : State) : Result :=
  match s.im with
  | .im0 =>
    if isRst s.intAckByte then
      .next ((s.enterHandler false fun _ => (s.intAckByte &&& 0x38).setWidth 16).cost 13)
    else .refused (.mode0AckNotRst s.intAckByte)
  | .im1 => .next ((s.enterHandler false fun _ => 0x0038).cost 13)
  | .im2 =>
    let t := s.enterHandler false fun s1 => s1.memWord s.vectorAddress
    .next ((t.afterReadWord s.vectorAddress).cost 19)

/-- `IFF1 <- IFF2; PC <- pop16()` (rules R522, R523, R611). -/
def State.returnFromInterrupt (s : State) : State :=
  { s.afterPop with iff1 := s.iff2, pc := s.popWord }

/-- A halted cycle (44_general_cpu.md rule R379): one read whose byte is ignored, R advances, PC stays. -/
def haltedCycle (s : State) : State :=
  ({ (s.afterRead s.pc).incR 1 with shadow := .none } : State).cost 4

/-! ### What a step does first (rules R603, R609) -/

/-- A non-maskable request is accepted at this boundary. -/
def State.takesNmi (s : State) : Bool := s.nmiPending && s.shadow != .all

/-- A maskable request is accepted at this boundary, where no non-maskable one is. -/
def State.takesInt (s : State) : Bool := s.intLine && s.iff1 && s.shadow == .none

/-- `newShadow <- none`: what the instruction of a step starts with. -/
def State.noShadow (s : State) : State := { s with shadow := .none }

/-! ### Fetching an instruction (30_encoding.md rules R110, R150, R151) -/

/-- Runs a decode on the bytes at PC: each byte is one `MemRead(PC, 1)`, and PC advances over it. A byte read
only to classify a standalone prefix is not consumed (rule R158). The decode state is Base at the end. -/
def fetchWith : Dec → State → Instr × State
  | .done i, s => (i, { s with decode := .base })
  | .unread i, s => (i, { s with decode := .base, pc := s.pc - 1 })
  | .more st k, s =>
    fetchWith (k (s.memByte s.pc)) { s.afterRead s.pc with decode := st, pc := s.pc + 1 }

/-- Fetches the instruction at PC and advances R for it (rule R162). -/
def fetch (s : State) : Instr × State :=
  let p := fetchWith decStart s
  (p.1, p.2.incR p.1.m1Cycles)

end Sys2Proof.Machine
end

