-- ==== Sys2Proof/Machine/Operands.lean ====
section
/-! DEFINITION. The operands an encoding can name (30_encoding.md rules R143 to R150, R155): registers, halves
of the index registers, register pairs, indexed addresses and conditions. -/

namespace Sys2Proof.Machine

/-! ### 8-bit registers (rule R143) -/

/-- `r8[k]` of a register set. -/
def RegBank.get (k : RegBank) : Reg8 → Byte
  | .b => k.b | .c => k.c | .d => k.d | .e => k.e | .h => k.h | .l => k.l | .a => k.a

/-- `r8[k] <- v` on a register set. -/
def RegBank.set (k : RegBank) (r : Reg8) (v : Byte) : RegBank :=
  match r with
  | .b => { k with b := v } | .c => { k with c := v } | .d => { k with d := v }
  | .e => { k with e := v } | .h => { k with h := v } | .l => { k with l := v }
  | .a => { k with a := v }

/-- The register `r`. -/
def State.reg (s : State) (r : Reg8) : Byte := s.main.get r

/-- `r <- v`. -/
def State.setReg (r : Reg8) (v : Byte) (s : State) : State := { s with main := s.main.set r v }

/-! ### Index registers and their halves (rules R43, R155) -/

/-- P. -/
def State.idx (s : State) (x : Idx) : Word :=
  match x with
  | .ix => s.ix
  | .iy => s.iy

/-- `P <- v`. -/
def State.setIdx (x : Idx) (v : Word) (s : State) : State :=
  { s with ix := if x = .ix then v else s.ix, iy := if x = .iy then v else s.iy }

/-- PH or PL. -/
def State.half (s : State) (x : Idx) (k : Half) : Byte :=
  match k with
  | .high => hi (s.idx x)
  | .low => lo (s.idx x)

/-- `PH <- v` or `PL <- v`: the other byte of P is unchanged (rule R43). -/
def State.setHalf (x : Idx) (k : Half) (v : Byte) (s : State) : State :=
  match k with
  | .high => s.setIdx x (w16 v (lo (s.idx x)))
  | .low => s.setIdx x (w16 (hi (s.idx x)) v)

/-- `s(r)` of rule R214: the register, with H and L replaced by PH and PL. -/
def State.halfReg (s : State) (x : Idx) : HalfReg → Byte
  | .b => s.main.b | .c => s.main.c | .d => s.main.d | .e => s.main.e | .a => s.main.a
  | .high => s.half x .high
  | .low => s.half x .low

/-- `EA = P +16 sext_16(d)` (rule R150). -/
def State.ea (s : State) (x : Idx) (d : Byte) : Word := s.idx x + sext16 d

/-! ### Register pairs (10_state.md rules R41, R42; rules R144, R145) -/

/-- BC. -/
def State.bc (s : State) : Word := w16 s.main.b s.main.c

/-- DE. -/
def State.de (s : State) : Word := w16 s.main.d s.main.e

/-- HL. -/
def State.hl (s : State) : Word := w16 s.main.h s.main.l

/-- AF. -/
def State.af (s : State) : Word := w16 s.main.a s.main.f

/-- `BC <- v`. -/
def State.setBc (v : Word) (s : State) : State := { s with main := { s.main with b := hi v, c := lo v } }

/-- `DE <- v`. -/
def State.setDe (v : Word) (s : State) : State := { s with main := { s.main with d := hi v, e := lo v } }

/-- `HL <- v`. -/
def State.setHl (v : Word) (s : State) : State := { s with main := { s.main with h := hi v, l := lo v } }

/-- `AF <- v`. -/
def State.setAf (v : Word) (s : State) : State := { s with main := { s.main with a := hi v, f := lo v } }

/-- `SP <- v`. -/
def State.setSp (v : Word) (s : State) : State := { s with sp := v }

/-- `rp[p]` (rule R144). -/
def State.pair (s : State) : Pair → Word
  | .bc => s.bc | .de => s.de | .hl => s.hl | .sp => s.sp

/-- `rp[p] <- v` (rules R42, R144). -/
def State.setPair (p : Pair) (v : Word) (s : State) : State :=
  match p with
  | .bc => s.setBc v | .de => s.setDe v | .hl => s.setHl v | .sp => s.setSp v

/-- `rp[p]` under an index prefix: code 2 is P (rules R144, R403). -/
def State.idxPair (s : State) (x : Idx) : IdxPair → Word
  | .bc => s.bc | .de => s.de | .self => s.idx x | .sp => s.sp

/-- `rp2[p]` (rule R145). -/
def State.stackPair (s : State) : StackPair → Word
  | .bc => s.bc | .de => s.de | .hl => s.hl | .af => s.af

/-- `rp2[p] <- v` (rules R42, R145). -/
def State.setStackPair (p : StackPair) (v : Word) (s : State) : State :=
  match p with
  | .bc => s.setBc v | .de => s.setDe v | .hl => s.setHl v | .af => s.setAf v

/-! ### A and F -/

/-- `A <- v`. -/
def State.setA (v : Byte) (s : State) : State := { s with main := { s.main with a := v } }

/-- `F <- v`, all eight bits (rule R60). -/
def State.setF (v : Byte) (s : State) : State := { s with main := { s.main with f := v } }

/-- `B <- v`. -/
def State.setB (v : Byte) (s : State) : State := { s with main := { s.main with b := v } }

/-! ### Conditions (rules R146, R510) -/

/-- `cond(y)`, a condition on F (48_jump_call.md rule R510). -/
def Cond.holds (f : Byte) : Cond → Bool
  | .nz => !f.getLsbD 6 | .z => f.getLsbD 6
  | .nc => !f.getLsbD 0 | .c => f.getLsbD 0
  | .po => !f.getLsbD 2 | .pe => f.getLsbD 2
  | .p => !f.getLsbD 7 | .m => f.getLsbD 7

/-- The condition of JR that a condition of JR names (rule R514). -/
def JrCond.cond : JrCond → Cond
  | .nz => .nz | .z => .z | .nc => .nc | .c => .c

/-- Whether a condition holds. -/
def State.cond (s : State) (cc : Cond) : Bool := Cond.holds s.main.f cc

end Sys2Proof.Machine
end

