-- ==== Sys2Proof/Machine/Flags.lean ====
section
/-! DEFINITION. The flag bits and every computation that yields flags (10_state.md rules R58 to R73; 43_alu8.md
rules R300 to R309; rules R276, R280, R370 to R374, R430 to R434, R479, R556). Sums and differences are
computed exactly and narrowed at the end. -/

namespace Sys2Proof.Machine

/-! ### The bits of F (rules R58, R60) -/

/-- `F.S`. -/
def flagS (f : Byte) : Bool := f.getLsbD 7
/-- `F.Z`. -/
def flagZ (f : Byte) : Bool := f.getLsbD 6
/-- `F.F5`. -/
def flagF5 (f : Byte) : Bool := f.getLsbD 5
/-- `F.H`. -/
def flagH (f : Byte) : Bool := f.getLsbD 4
/-- `F.F3`. -/
def flagF3 (f : Byte) : Bool := f.getLsbD 3
/-- `F.PV`. -/
def flagPV (f : Byte) : Bool := f.getLsbD 2
/-- `F.N`. -/
def flagN (f : Byte) : Bool := f.getLsbD 1
/-- `F.C`. -/
def flagC (f : Byte) : Bool := f.getLsbD 0

/-! ### Primitives (rules R64 to R68) -/

/-- The SZ53 table (rule R64). -/
def sz53 (v : Byte) : Byte := (v &&& 0xA8) ||| bitIf (v == 0) 0x40

/-- The number of 1 bits (rule R13). -/
def popcount (v : Byte) : Nat := (List.range 8).countP fun k => v.getLsbD k

/-- `parity(v)`: 1 iff the number of 1 bits is even (rule R65). -/
def parity (v : Byte) : Bool := popcount v % 2 == 0

/-- The parity table, as a contribution to PV (rule R65). -/
def parityF (v : Byte) : Byte := bitIf (parity v) 0x04

/-- `sz53p(v)` (rule R66). -/
def sz53p (v : Byte) : Byte := sz53 v ||| parityF v

/-- `hc(a, b, r)`: the carry or borrow at bit 3 to 4 (rule R67). -/
def hc (a b r : Byte) : Bool := (a ^^^ b ^^^ r).getLsbD 4

/-- `hc16(a, b, r)`: the carry or borrow at bit 11 to 12 (rule R67). -/
def hc16 (a b r : Word) : Bool := (a ^^^ b ^^^ r).getLsbD 12

/-- `ov_add(a, b, r)` (rule R68). -/
def ovAdd (a b r : Byte) : Bool := ((a ^^^ r) &&& (b ^^^ r)).getLsbD 7

/-- `ov_sub(a, b, r)` (rule R68). -/
def ovSub (a b r : Byte) : Bool := ((a ^^^ b) &&& (a ^^^ r)).getLsbD 7

/-- The 16-bit form of `ov_add` (rule R68). -/
def ovAdd16 (a b r : Word) : Bool := ((a ^^^ r) &&& (b ^^^ r)).getLsbD 15

/-- The 16-bit form of `ov_sub` (rule R68). -/
def ovSub16 (a b r : Word) : Bool := ((a ^^^ b) &&& (a ^^^ r)).getLsbD 15

/-! ### Sums and differences (rules R69 to R72) -/

/-- `add8(a, b, c)`: the result and the flags (rule R69). -/
def add8 (a b : Byte) (c : Bool) : Byte × Byte :=
  let t := a.toNat + b.toNat + c.toNat
  let r := BitVec.ofNat 8 t
  (r, sz53 r ||| bitIf (hc a b r) 0x10 ||| bitIf (ovAdd a b r) 0x04 ||| bitIf (0xFF < t) 0x01)

/-- `sub8(a, b, c)`: the result and the flags (rule R70). -/
def sub8 (a b : Byte) (c : Bool) : Byte × Byte :=
  let t : Int := (a.toNat : Int) - b.toNat - c.toNat
  let r := BitVec.ofInt 8 t
  (r, sz53 r ||| bitIf (hc a b r) 0x10 ||| bitIf (ovSub a b r) 0x04 ||| 0x02 ||| bitIf (t < 0) 0x01)

/-- `add16(a, b)` from the old F: S, Z and PV stay (rule R71). -/
def add16 (f : Byte) (a b : Word) : Word × Byte :=
  let t := a.toNat + b.toNat
  let r := BitVec.ofNat 16 t
  (r, (f &&& 0xC4) ||| (hi r &&& 0x28) ||| bitIf (hc16 a b r) 0x10 ||| bitIf (0xFFFF < t) 0x01)

/-- `adc16(a, b, c)` (rule R72). -/
def adc16 (a b : Word) (c : Bool) : Word × Byte :=
  let t := a.toNat + b.toNat + c.toNat
  let r := BitVec.ofNat 16 t
  (r, bitIf (r.getLsbD 15) 0x80 ||| bitIf (r == 0) 0x40 ||| (hi r &&& 0x28) |||
    bitIf (hc16 a b r) 0x10 ||| bitIf (ovAdd16 a b r) 0x04 ||| bitIf (0xFFFF < t) 0x01)

/-- `sbc16(a, b, c)` (rule R72). -/
def sbc16 (a b : Word) (c : Bool) : Word × Byte :=
  let t : Int := (a.toNat : Int) - b.toNat - c.toNat
  let r := BitVec.ofInt 16 t
  (r, bitIf (r.getLsbD 15) 0x80 ||| bitIf (r == 0) 0x40 ||| (hi r &&& 0x28) |||
    bitIf (hc16 a b r) 0x10 ||| bitIf (ovSub16 a b r) 0x04 ||| 0x02 ||| bitIf (t < 0) 0x01)

/-! ### The 8-bit operations on A (rules R300 to R307) -/

/-- The operations of the field `alu[y]` (rule R147). -/
inductive AluOp where
  | add | adc | sub | sbc | and | xor | or | cp
deriving DecidableEq, Repr

/-- The new A and the new F of an operation on A and a byte v, from the old F (rules R300 to R307). -/
def alu (op : AluOp) (a f v : Byte) : Byte × Byte :=
  match op with
  | .add => add8 a v false
  | .adc => add8 a v (flagC f)
  | .sub => sub8 a v false
  | .sbc => sub8 a v (flagC f)
  | .and => (a &&& v, sz53p (a &&& v) ||| 0x10)
  | .xor => (a ^^^ v, sz53p (a ^^^ v))
  | .or => (a ||| v, sz53p (a ||| v))
  | .cp => (a, ((sub8 a v false).2 &&& ~~~0x28) ||| (v &&& 0x28))

/-- `inc8(v)`: the result and the flags, C from the old F (rule R308). -/
def inc8 (f v : Byte) : Byte × Byte :=
  let r := v + 1
  (r, (f &&& 0x01) ||| sz53 r ||| bitIf (r &&& 0x0F == 0) 0x10 ||| bitIf (v == 0x7F) 0x04)

/-- `dec8(v)`: the result and the flags, C from the old F (rule R309). -/
def dec8 (f v : Byte) : Byte × Byte :=
  let r := v - 1
  (r, (f &&& 0x01) ||| sz53 r ||| bitIf (v &&& 0x0F == 0) 0x10 ||| bitIf (v == 0x80) 0x04 ||| 0x02)

/-! ### A and F alone (rules R370 to R374, R430 to R433) -/

/-- The correction DAA adds or subtracts (rule R370). -/
def daaCorrection (a f : Byte) : Byte :=
  bitIf (flagH f || 9 < (a &&& 0x0F).toNat) 0x06 ||| bitIf (flagC f || 0x99 < a.toNat) 0x60

/-- DAA: the new A and the new F (rule R370). -/
def daa (a f : Byte) : Byte × Byte :=
  let add := daaCorrection a f
  let p := if flagN f then sub8 a add false else add8 a add false
  (p.1, (p.2 &&& ~~~0x05) ||| bitIf (flagC f || 0x99 < a.toNat) 0x01 ||| parityF p.1)

/-- F after CPL, from the old F and the new A (rule R371). -/
def cplFlags (f a : Byte) : Byte := (f &&& 0xC5) ||| (a &&& 0x28) ||| 0x10 ||| 0x02

/-- F after CCF (rule R373). -/
def ccfFlags (f a : Byte) : Byte :=
  (f &&& 0xC4) ||| (a &&& 0x28) ||| bitIf (flagC f) 0x10 ||| bitIf (!flagC f) 0x01

/-- F after SCF (rule R374). -/
def scfFlags (f a : Byte) : Byte := (f &&& 0xC4) ||| (a &&& 0x28) ||| 0x01

/-- F after an accumulator rotate that leaves `a` and shifts out c: S, Z and PV stay (rules R430 to R433). -/
def rotAFlags (f a : Byte) (c : Bool) : Byte := (f &&& 0xC4) ||| (a &&& 0x28) ||| bitIf c 0x01

/-- F after LD A,I and LD A,R: PV is IFF2, C stays (rules R216, R217). -/
def ldAIrFlags (f a : Byte) (iff2 : Bool) : Byte := (f &&& 0x01) ||| sz53 a ||| bitIf iff2 0x04

/-- F after IN r,(C), RLD and RRD: from a byte, with C kept (rules R467, R468, R551). -/
def sz53pKeepC (f v : Byte) : Byte := (f &&& 0x01) ||| sz53p v

/-! ### Rotates and shifts (rule R434) -/

/-- The operations of the field `rot[y]` (rule R148). -/
inductive RotOp where
  | rlc | rrc | rl | rr | sla | sra | sll | srl
deriving DecidableEq, Repr

/-- The result of a rotate or shift of v with the old carry c (rule R434). -/
def rotResult (op : RotOp) (c : Bool) (v : Byte) : Byte :=
  match op with
  | .rlc => (v <<< 1) ||| bitIf (v.getLsbD 7) 0x01
  | .rrc => (v >>> 1) ||| bitIf (v.getLsbD 0) 0x80
  | .rl => (v <<< 1) ||| bitIf c 0x01
  | .rr => (v >>> 1) ||| bitIf c 0x80
  | .sla => v <<< 1
  | .sra => (v >>> 1) ||| (v &&& 0x80)
  | .sll => (v <<< 1) ||| 0x01
  | .srl => v >>> 1

/-- The bit a rotate or shift moves out (rule R434). -/
def rotCarry (op : RotOp) (v : Byte) : Bool :=
  match op with
  | .rlc | .rl | .sla | .sll => v.getLsbD 7
  | .rrc | .rr | .sra | .srl => v.getLsbD 0

/-- `rot[y](v)`: the result and the flags (rule R434). -/
def rot (op : RotOp) (f v : Byte) : Byte × Byte :=
  let r := rotResult op (flagC f) v
  (r, sz53p r ||| bitIf (rotCarry op v) 0x01)

/-! ### Bits (rule R479; rules R483, R487) -/

/-- The byte with bit b alone set. -/
def bitMask (b : BitVec 3) : Byte := (1 : Byte) <<< b.toNat

/-- `bitflags(b, v, xy)` (rule R479). -/
def bitFlags (f : Byte) (b : BitVec 3) (v xy : Byte) : Byte :=
  let t := v &&& bitMask b
  (f &&& 0x01) ||| 0x10 ||| (xy &&& 0x28) ||| bitIf (t == 0) 0x44 ||| bitIf (b == 7 && t != 0) 0x80

/-- `v & ~(1 << b)` (rule R483). -/
def resBit (b : BitVec 3) (v : Byte) : Byte := v &&& ~~~(bitMask b)

/-- `v | (1 << b)` (rule R487). -/
def setBit (b : BitVec 3) (v : Byte) : Byte := v ||| bitMask b

/-! ### Block instructions (rules R276, R280, R556) -/

/-- F5 and F3 as the block transfers and searches take them: bit 1 and bit 3 of n (rules R276, R280). -/
def blockXY (n : Byte) : Byte := (n &&& 0x08) ||| ((n &&& 0x02) <<< 4)

/-- F after LDI and LDD, from the old F, A, the byte moved and the new BC (rule R276). -/
def ldiFlags (f a v : Byte) (bc : Word) : Byte := (f &&& 0xC1) ||| bitIf (bc != 0) 0x04 ||| blockXY (a + v)

/-- F after CPI and CPD, from the old F, A, the byte read and the new BC (rule R280). -/
def cpiFlags (f a v : Byte) (bc : Word) : Byte :=
  let r := a - v
  let h := hc a v r
  (f &&& 0x01) ||| (r &&& 0x80) ||| bitIf (r == 0) 0x40 ||| bitIf h 0x10 ||| bitIf (bc != 0) 0x04 |||
    0x02 ||| blockXY (r - bitIf h 1)

/-- `ioflags(v, k)`, with B after its decrement (rule R556). -/
def ioFlags (b v : Byte) (k : Nat) : Byte :=
  sz53 b ||| bitIf (v.getLsbD 7) 0x02 ||| bitIf (255 < k) 0x11 |||
    parityF ((BitVec.ofNat 8 k &&& 7) ^^^ b)

end Sys2Proof.Machine
end

