-- ==== Sys2Proof/Machine/Alu16.lean ====
section
/-! DEFINITION. The 16-bit arithmetic group (45_alu16.md). -/

namespace Sys2Proof.Machine

/-- `ADD HL,ss` (rule R400). -/
def execAddHlSs (ss : Pair) (s : State) : Result :=
  .next (((s.setHl (add16 s.main.f s.hl (s.pair ss)).1).setF (add16 s.main.f s.hl (s.pair ss)).2).cost 11)

/-- `ADC HL,ss` (rule R401). -/
def execAdcHlSs (ss : Pair) (s : State) : Result :=
  .next (((s.setHl (adc16 s.hl (s.pair ss) (flagC s.main.f)).1).setF
    (adc16 s.hl (s.pair ss) (flagC s.main.f)).2).cost 15)

/-- `SBC HL,ss` (rule R402). -/
def execSbcHlSs (ss : Pair) (s : State) : Result :=
  .next (((s.setHl (sbc16 s.hl (s.pair ss) (flagC s.main.f)).1).setF
    (sbc16 s.hl (s.pair ss) (flagC s.main.f)).2).cost 15)

/-- `ADD IX,pp` (rule R403). -/
def execAddIdxPp (x : Idx) (pp : IdxPair) (s : State) : Result :=
  .next (((s.setIdx x (add16 s.main.f (s.idx x) (s.idxPair x pp)).1).setF
    (add16 s.main.f (s.idx x) (s.idxPair x pp)).2).cost 15)

/-- `INC ss` (rule R404). -/
def execIncSs (ss : Pair) (s : State) : Result :=
  .next ((s.setPair ss (s.pair ss + 1)).cost 6)

/-- `DEC ss` (rule R405). -/
def execDecSs (ss : Pair) (s : State) : Result :=
  .next ((s.setPair ss (s.pair ss - 1)).cost 6)

/-- `INC IX` (rule R406). -/
def execIncIdx (x : Idx) (s : State) : Result :=
  .next ((s.setIdx x (s.idx x + 1)).cost 10)

/-- `DEC IX` (rule R407). -/
def execDecIdx (x : Idx) (s : State) : Result :=
  .next ((s.setIdx x (s.idx x - 1)).cost 10)

end Sys2Proof.Machine
end

