-- ==== Sys2Proof/Machine/Alu8.lean ====
section
/-! DEFINITION. The 8-bit arithmetic and logic group (43_alu8.md). -/

namespace Sys2Proof.Machine

/-- An operation on A and a byte (rules R300 to R307). -/
def State.alu (op : AluOp) (v : Byte) (s : State) : State :=
  (s.setA (Machine.alu op s.main.a s.main.f v).1).setF (Machine.alu op s.main.a s.main.f v).2

/-- A read-modify-write: one read, then one write of the same address, and F (20_memory.md rule R110). `g` gives
the new byte and the new F from the old F and the byte read. -/
def State.modify (g : Byte → Byte → Byte × Byte) (a : Word) (s : State) : State :=
  ((s.afterRead a).memWrite a (g s.main.f (s.memByte a)).1).setF (g s.main.f (s.memByte a)).2

/-- `ADD A,r` (rule R310). -/
def execAddAR (r : Reg8) (s : State) : Result :=
  .next ((s.alu .add (s.reg r)).cost 4)

/-- `ADD A,n` (rule R311). -/
def execAddAN (n : Byte) (s : State) : Result :=
  .next ((s.alu .add n).cost 7)

/-- `ADD A,(HL)` (rule R312). -/
def execAddAMemHl (s : State) : Result :=
  .next (((s.afterRead s.hl).alu .add (s.memByte s.hl)).cost 7)

/-- `ADD A,(IX+d)` (rule R313). -/
def execAddAMemIdx (x : Idx) (d : Byte) (s : State) : Result :=
  .next (((s.afterRead (s.ea x d)).alu .add (s.memByte (s.ea x d))).cost 19)

/-- `ADD A,IXH/IXL` (rule R314). -/
def execAddAHalf (x : Idx) (half : Half) (s : State) : Result :=
  .next ((s.alu .add (s.half x half)).cost 8)

/-- `ADC A,r` (rule R315). -/
def execAdcAR (r : Reg8) (s : State) : Result :=
  .next ((s.alu .adc (s.reg r)).cost 4)

/-- `ADC A,n` (rule R316). -/
def execAdcAN (n : Byte) (s : State) : Result :=
  .next ((s.alu .adc n).cost 7)

/-- `ADC A,(HL)` (rule R317). -/
def execAdcAMemHl (s : State) : Result :=
  .next (((s.afterRead s.hl).alu .adc (s.memByte s.hl)).cost 7)

/-- `ADC A,(IX+d)` (rule R318). -/
def execAdcAMemIdx (x : Idx) (d : Byte) (s : State) : Result :=
  .next (((s.afterRead (s.ea x d)).alu .adc (s.memByte (s.ea x d))).cost 19)

/-- `ADC A,IXH/IXL` (rule R319). -/
def execAdcAHalf (x : Idx) (half : Half) (s : State) : Result :=
  .next ((s.alu .adc (s.half x half)).cost 8)

/-- `SUB r` (rule R320). -/
def execSubR (r : Reg8) (s : State) : Result :=
  .next ((s.alu .sub (s.reg r)).cost 4)

/-- `SUB n` (rule R321). -/
def execSubN (n : Byte) (s : State) : Result :=
  .next ((s.alu .sub n).cost 7)

/-- `SUB (HL)` (rule R322). -/
def execSubMemHl (s : State) : Result :=
  .next (((s.afterRead s.hl).alu .sub (s.memByte s.hl)).cost 7)

/-- `SUB (IX+d)` (rule R323). -/
def execSubMemIdx (x : Idx) (d : Byte) (s : State) : Result :=
  .next (((s.afterRead (s.ea x d)).alu .sub (s.memByte (s.ea x d))).cost 19)

/-- `SUB IXH/IXL` (rule R324). -/
def execSubHalf (x : Idx) (half : Half) (s : State) : Result :=
  .next ((s.alu .sub (s.half x half)).cost 8)

/-- `SBC A,r` (rule R325). -/
def execSbcAR (r : Reg8) (s : State) : Result :=
  .next ((s.alu .sbc (s.reg r)).cost 4)

/-- `SBC A,n` (rule R326). -/
def execSbcAN (n : Byte) (s : State) : Result :=
  .next ((s.alu .sbc n).cost 7)

/-- `SBC A,(HL)` (rule R327). -/
def execSbcAMemHl (s : State) : Result :=
  .next (((s.afterRead s.hl).alu .sbc (s.memByte s.hl)).cost 7)

/-- `SBC A,(IX+d)` (rule R328). -/
def execSbcAMemIdx (x : Idx) (d : Byte) (s : State) : Result :=
  .next (((s.afterRead (s.ea x d)).alu .sbc (s.memByte (s.ea x d))).cost 19)

/-- `SBC A,IXH/IXL` (rule R329). -/
def execSbcAHalf (x : Idx) (half : Half) (s : State) : Result :=
  .next ((s.alu .sbc (s.half x half)).cost 8)

/-- `AND r` (rule R330). -/
def execAndR (r : Reg8) (s : State) : Result :=
  .next ((s.alu .and (s.reg r)).cost 4)

/-- `AND n` (rule R331). -/
def execAndN (n : Byte) (s : State) : Result :=
  .next ((s.alu .and n).cost 7)

/-- `AND (HL)` (rule R332). -/
def execAndMemHl (s : State) : Result :=
  .next (((s.afterRead s.hl).alu .and (s.memByte s.hl)).cost 7)

/-- `AND (IX+d)` (rule R333). -/
def execAndMemIdx (x : Idx) (d : Byte) (s : State) : Result :=
  .next (((s.afterRead (s.ea x d)).alu .and (s.memByte (s.ea x d))).cost 19)

/-- `AND IXH/IXL` (rule R334). -/
def execAndHalf (x : Idx) (half : Half) (s : State) : Result :=
  .next ((s.alu .and (s.half x half)).cost 8)

/-- `XOR r` (rule R335). -/
def execXorR (r : Reg8) (s : State) : Result :=
  .next ((s.alu .xor (s.reg r)).cost 4)

/-- `XOR n` (rule R336). -/
def execXorN (n : Byte) (s : State) : Result :=
  .next ((s.alu .xor n).cost 7)

/-- `XOR (HL)` (rule R337). -/
def execXorMemHl (s : State) : Result :=
  .next (((s.afterRead s.hl).alu .xor (s.memByte s.hl)).cost 7)

/-- `XOR (IX+d)` (rule R338). -/
def execXorMemIdx (x : Idx) (d : Byte) (s : State) : Result :=
  .next (((s.afterRead (s.ea x d)).alu .xor (s.memByte (s.ea x d))).cost 19)

/-- `XOR IXH/IXL` (rule R339). -/
def execXorHalf (x : Idx) (half : Half) (s : State) : Result :=
  .next ((s.alu .xor (s.half x half)).cost 8)

/-- `OR r` (rule R340). -/
def execOrR (r : Reg8) (s : State) : Result :=
  .next ((s.alu .or (s.reg r)).cost 4)

/-- `OR n` (rule R341). -/
def execOrN (n : Byte) (s : State) : Result :=
  .next ((s.alu .or n).cost 7)

/-- `OR (HL)` (rule R342). -/
def execOrMemHl (s : State) : Result :=
  .next (((s.afterRead s.hl).alu .or (s.memByte s.hl)).cost 7)

/-- `OR (IX+d)` (rule R343). -/
def execOrMemIdx (x : Idx) (d : Byte) (s : State) : Result :=
  .next (((s.afterRead (s.ea x d)).alu .or (s.memByte (s.ea x d))).cost 19)

/-- `OR IXH/IXL` (rule R344). -/
def execOrHalf (x : Idx) (half : Half) (s : State) : Result :=
  .next ((s.alu .or (s.half x half)).cost 8)

/-- `CP r` (rule R345). -/
def execCpR (r : Reg8) (s : State) : Result :=
  .next ((s.alu .cp (s.reg r)).cost 4)

/-- `CP n` (rule R346). -/
def execCpN (n : Byte) (s : State) : Result :=
  .next ((s.alu .cp n).cost 7)

/-- `CP (HL)` (rule R347). -/
def execCpMemHl (s : State) : Result :=
  .next (((s.afterRead s.hl).alu .cp (s.memByte s.hl)).cost 7)

/-- `CP (IX+d)` (rule R348). -/
def execCpMemIdx (x : Idx) (d : Byte) (s : State) : Result :=
  .next (((s.afterRead (s.ea x d)).alu .cp (s.memByte (s.ea x d))).cost 19)

/-- `CP IXH/IXL` (rule R349). -/
def execCpHalf (x : Idx) (half : Half) (s : State) : Result :=
  .next ((s.alu .cp (s.half x half)).cost 8)

/-- `INC r` (rule R350). -/
def execIncR (r : Reg8) (s : State) : Result :=
  .next (((s.setReg r (inc8 s.main.f (s.reg r)).1).setF (inc8 s.main.f (s.reg r)).2).cost 4)

/-- `INC (HL)` (rule R351). -/
def execIncMemHl (s : State) : Result :=
  .next ((s.modify inc8 s.hl).cost 11)

/-- `INC (IX+d)` (rule R352). -/
def execIncMemIdx (x : Idx) (d : Byte) (s : State) : Result :=
  .next ((s.modify inc8 (s.ea x d)).cost 23)

/-- `INC IXH/IXL` (rule R353). -/
def execIncHalf (x : Idx) (half : Half) (s : State) : Result :=
  .next (((s.setHalf x half (inc8 s.main.f (s.half x half)).1).setF
    (inc8 s.main.f (s.half x half)).2).cost 8)

/-- `DEC r` (rule R354). -/
def execDecR (r : Reg8) (s : State) : Result :=
  .next (((s.setReg r (dec8 s.main.f (s.reg r)).1).setF (dec8 s.main.f (s.reg r)).2).cost 4)

/-- `DEC (HL)` (rule R355). -/
def execDecMemHl (s : State) : Result :=
  .next ((s.modify dec8 s.hl).cost 11)

/-- `DEC (IX+d)` (rule R356). -/
def execDecMemIdx (x : Idx) (d : Byte) (s : State) : Result :=
  .next ((s.modify dec8 (s.ea x d)).cost 23)

/-- `DEC IXH/IXL` (rule R357). -/
def execDecHalf (x : Idx) (half : Half) (s : State) : Result :=
  .next (((s.setHalf x half (dec8 s.main.f (s.half x half)).1).setF
    (dec8 s.main.f (s.half x half)).2).cost 8)

end Sys2Proof.Machine
end

