-- ==== Sys2Proof/Machine/BitOps.lean ====
section
/-! DEFINITION. The bit set, reset and test group (47_bit.md). -/

namespace Sys2Proof.Machine

/-- A read-modify-write that leaves F alone: one read, then one write of the same address (rules R484 to R490). -/
def State.rewrite (g : Byte → Byte) (a : Word) (s : State) : State :=
  (s.afterRead a).memWrite a (g (s.memByte a))

/-- `BIT b,r` (rule R480). -/
def execBitR (b : BitVec 3) (r : Reg8) (s : State) : Result :=
  .next ((s.setF (bitFlags s.main.f b (s.reg r) (s.reg r))).cost 8)

/-- `BIT b,(HL)` (rule R481). F5 and F3 are those of the byte read. -/
def execBitMemHl (b : BitVec 3) (s : State) : Result :=
  .next (((s.afterRead s.hl).setF (bitFlags s.main.f b (s.memByte s.hl) (s.memByte s.hl))).cost 12)

/-- `BIT b,(IX+d)` (rule R482). The same for every z: F5 and F3 are those of the high byte of EA. -/
def execBitMemIdx (x : Idx) (d : Byte) (b : BitVec 3) (s : State) : Result :=
  .next (((s.afterRead (s.ea x d)).setF
    (bitFlags s.main.f b (s.memByte (s.ea x d)) (hi (s.ea x d)))).cost 20)

/-- `RES b,r` (rule R483). -/
def execResR (b : BitVec 3) (r : Reg8) (s : State) : Result :=
  .next ((s.setReg r (resBit b (s.reg r))).cost 8)

/-- `RES b,(HL)` (rule R484). -/
def execResMemHl (b : BitVec 3) (s : State) : Result :=
  .next ((s.rewrite (resBit b) s.hl).cost 15)

/-- `RES b,(IX+d)` (rule R485). -/
def execResMemIdx (x : Idx) (d : Byte) (b : BitVec 3) (s : State) : Result :=
  .next ((s.rewrite (resBit b) (s.ea x d)).cost 23)

/-- `RES b,(IX+d),r` (rule R486). -/
def execResMemIdxCopy (x : Idx) (d : Byte) (b : BitVec 3) (r : Reg8) (s : State) : Result :=
  .next (((s.rewrite (resBit b) (s.ea x d)).setReg r (resBit b (s.memByte (s.ea x d)))).cost 23)

/-- `SET b,r` (rule R487). -/
def execSetR (b : BitVec 3) (r : Reg8) (s : State) : Result :=
  .next ((s.setReg r (setBit b (s.reg r))).cost 8)

/-- `SET b,(HL)` (rule R488). -/
def execSetMemHl (b : BitVec 3) (s : State) : Result :=
  .next ((s.rewrite (setBit b) s.hl).cost 15)

/-- `SET b,(IX+d)` (rule R489). -/
def execSetMemIdx (x : Idx) (d : Byte) (b : BitVec 3) (s : State) : Result :=
  .next ((s.rewrite (setBit b) (s.ea x d)).cost 23)

/-- `SET b,(IX+d),r` (rule R490). -/
def execSetMemIdxCopy (x : Idx) (d : Byte) (b : BitVec 3) (r : Reg8) (s : State) : Result :=
  .next (((s.rewrite (setBit b) (s.ea x d)).setReg r (setBit b (s.memByte (s.ea x d)))).cost 23)

end Sys2Proof.Machine
end

