-- ==== Sys2Proof/Machine/Exchange.lean ====
section
/-! DEFINITION. The exchange, block transfer and block search group (42_exchange_block.md). -/

namespace Sys2Proof.Machine

/-- `AF <- AF'` and `AF' <- AF` (rule R271). -/
def State.swapAf (s : State) : State :=
  { s with
    main := { s.main with a := s.alt.a, f := s.alt.f }
    alt := { s.alt with a := s.main.a, f := s.main.f } }

/-- BC, DE and HL exchanged with BC', DE' and HL' (rule R272). -/
def State.swapBanks (s : State) : State :=
  { s with
    main := { s.alt with a := s.main.a, f := s.main.f }
    alt := { s.main with a := s.alt.a, f := s.alt.f } }

/-- The memory side of an exchange with the top of the stack: two reads, low byte first, then the two writes of
v, high byte first (rules R273, R274). -/
def State.exchangeTop (v : Word) (s : State) : State :=
  ((s.afterReadWord s.sp).memWrite (s.sp + 1) (hi v)).memWrite s.sp (lo v)

/-- The end of an iteration of a repeating block instruction: back to its first byte at 21 T-states, or on to the
next instruction at 16 (rule R275). -/
def State.repeatIf (again : Bool) (s : State) : State :=
  if again then ({ s with pc := s.pc - 2 } : State).cost 21 else s.cost 16

/-- LDI with `step` 1, LDD with `step` -1 (rules R276, R278). -/
def State.blockLoad (step : Word) (s : State) : State :=
  let v := s.memByte s.hl
  let t := (s.afterRead s.hl).memWrite s.de v
  (((t.setDe (s.de + step)).setHl (s.hl + step)).setBc (s.bc - 1)).setF
    (ldiFlags s.main.f s.main.a v (s.bc - 1))

/-- CPI with `step` 1, CPD with `step` -1 (rules R280, R282). -/
def State.blockCompare (step : Word) (s : State) : State :=
  let v := s.memByte s.hl
  (((s.afterRead s.hl).setHl (s.hl + step)).setBc (s.bc - 1)).setF
    (cpiFlags s.main.f s.main.a v (s.bc - 1))

/-- `EX DE,HL` (rule R270). -/
def execExDeHl (s : State) : Result :=
  .next (((s.setDe s.hl).setHl s.de).cost 4)

/-- `EX AF,AF'` (rule R271). -/
def execExAfAf (s : State) : Result :=
  .next (s.swapAf.cost 4)

/-- `EXX` (rule R272). -/
def execExx (s : State) : Result :=
  .next (s.swapBanks.cost 4)

/-- `EX (SP),HL` (rule R273). -/
def execExSpHl (s : State) : Result :=
  .next (((s.exchangeTop s.hl).setHl (s.memWord s.sp)).cost 19)

/-- `EX (SP),IX` (rule R274). -/
def execExSpIdx (x : Idx) (s : State) : Result :=
  .next (((s.exchangeTop (s.idx x)).setIdx x (s.memWord s.sp)).cost 23)

/-- `LDI` (rule R276). -/
def execLdi (s : State) : Result :=
  .next ((s.blockLoad 1).cost 16)

/-- `LDIR` (rule R277). -/
def execLdir (s : State) : Result :=
  .next (let t := s.blockLoad 1
    t.repeatIf (t.bc != 0))

/-- `LDD` (rule R278). -/
def execLdd (s : State) : Result :=
  .next ((s.blockLoad (-1)).cost 16)

/-- `LDDR` (rule R279). -/
def execLddr (s : State) : Result :=
  .next (let t := s.blockLoad (-1)
    t.repeatIf (t.bc != 0))

/-- `CPI` (rule R280). -/
def execCpi (s : State) : Result :=
  .next ((s.blockCompare 1).cost 16)

/-- `CPIR` (rule R281). -/
def execCpir (s : State) : Result :=
  .next (let t := s.blockCompare 1
    t.repeatIf (t.bc != 0 && s.main.a - s.memByte s.hl != 0))

/-- `CPD` (rule R282). -/
def execCpd (s : State) : Result :=
  .next ((s.blockCompare (-1)).cost 16)

/-- `CPDR` (rule R283). -/
def execCpdr (s : State) : Result :=
  .next (let t := s.blockCompare (-1)
    t.repeatIf (t.bc != 0 && s.main.a - s.memByte s.hl != 0))

end Sys2Proof.Machine
end

