-- ==== Sys2Proof/Machine/General.lean ====
section
/-! DEFINITION. The general-purpose arithmetic and CPU control group (44_general_cpu.md), but for the decode
outcomes of rules R387 and R388, which Machine/Prefix.lean holds. -/

namespace Sys2Proof.Machine

/-- `IFF1 <- 1; IFF2 <- 1; if eiDelay then shadow <- int` (rule R378). -/
def State.enableInterrupts (s : State) : State :=
  { s with iff1 := true, iff2 := true, shadow := if s.eiDelay then .int else s.shadow }

/-- `DAA` (rule R370). -/
def execDaa (s : State) : Result :=
  .next (((s.setA (daa s.main.a s.main.f).1).setF (daa s.main.a s.main.f).2).cost 4)

/-- `CPL` (rule R371). -/
def execCpl (s : State) : Result :=
  .next (((s.setA (s.main.a ^^^ 0xFF)).setF (cplFlags s.main.f (s.main.a ^^^ 0xFF))).cost 4)

/-- `NEG` (rule R372). The same for every y. -/
def execNeg (s : State) : Result :=
  .next (((s.setA (sub8 0 s.main.a false).1).setF (sub8 0 s.main.a false).2).cost 8)

/-- `CCF` (rule R373). -/
def execCcf (s : State) : Result :=
  .next ((s.setF (ccfFlags s.main.f s.main.a)).cost 4)

/-- `SCF` (rule R374). -/
def execScf (s : State) : Result :=
  .next ((s.setF (scfFlags s.main.f s.main.a)).cost 4)

/-- `NOP` (rule R375). -/
def execNop (s : State) : Result :=
  .next (s.cost 4)

/-- `HALT` (rule R376). -/
def execHalt (s : State) : Result :=
  .next (({ s with halted := true } : State).cost 4)

/-- `DI` (rule R377). -/
def execDi (s : State) : Result :=
  .next (({ s with iff1 := false, iff2 := false } : State).cost 4)

/-- `EI` (rule R378). -/
def execEi (s : State) : Result :=
  .next (s.enableInterrupts.cost 4)

/-- `IM 0` (rule R381). The same for every ignored y. -/
def execIm0 (s : State) : Result :=
  .next ((({ s with im := .im0 }) : State).cost 8)

/-- `IM 1` (rule R382). The same for every ignored y. -/
def execIm1 (s : State) : Result :=
  .next ((({ s with im := .im1 }) : State).cost 8)

/-- `IM 2` (rule R383). The same for every ignored y. -/
def execIm2 (s : State) : Result :=
  .next ((({ s with im := .im2 }) : State).cost 8)

/-- `NOP* (every other ED opcode)` (rule R386). No register, flag or memory effect. -/
def execNopEd (s : State) : Result :=
  .next (s.cost 8)

end Sys2Proof.Machine
end

