-- ==== Sys2Proof/Machine/Io.lean ====
section
/-! DEFINITION. The input and output group (49_io.md). -/

namespace Sys2Proof.Machine

/-- INI with `step` 1, IND with `step` -1: the port address has B before its decrement (rules R557, R559). -/
def State.blockIn (step : Word) (s : State) : State :=
  let v := s.portByte s.bc
  let b := s.main.b - 1
  let k := v.toNat + (s.main.c + lo step).toNat
  (((((s.afterPortRead s.bc).memWrite s.hl v).setB b).setHl (s.hl + step))).setF (ioFlags b v k)

/-- OUTI with `step` 1, OUTD with `step` -1: the port address has B after its decrement, and k takes L after its
change (rules R561, R563). -/
def State.blockOut (step : Word) (s : State) : State :=
  let v := s.memByte s.hl
  let t := (s.afterRead s.hl).setB (s.main.b - 1)
  let u := (t.portWrite t.bc v).setHl (s.hl + step)
  u.setF (ioFlags u.main.b v (v.toNat + u.main.l.toNat))

/-- `IN A,(n)` (rule R550). -/
def execInAN (n : Byte) (s : State) : Result :=
  .next (((s.afterPortRead (w16 s.main.a n)).setA (s.portByte (w16 s.main.a n))).cost 11)

/-- `IN r,(C)` (rule R551). -/
def execInRC (r : Reg8) (s : State) : Result :=
  .next ((((s.afterPortRead s.bc).setReg r (s.portByte s.bc)).setF
    (sz53pKeepC s.main.f (s.portByte s.bc))).cost 12)

/-- `IN F,(C)` (rule R552). -/
def execInFC (s : State) : Result :=
  .next (((s.afterPortRead s.bc).setF (sz53pKeepC s.main.f (s.portByte s.bc))).cost 12)

/-- `OUT (n),A` (rule R553). -/
def execOutNA (n : Byte) (s : State) : Result :=
  .next ((s.portWrite (w16 s.main.a n) s.main.a).cost 11)

/-- `OUT (C),r` (rule R554). -/
def execOutCR (r : Reg8) (s : State) : Result :=
  .next ((s.portWrite s.bc (s.reg r)).cost 12)

/-- `OUT (C),0` (rule R555). -/
def execOutCZero (s : State) : Result :=
  .next ((s.portWrite s.bc 0x00).cost 12)

/-- `INI` (rule R557). -/
def execIni (s : State) : Result :=
  .next ((s.blockIn 1).cost 16)

/-- `INIR` (rule R558). -/
def execInir (s : State) : Result :=
  .next (let t := s.blockIn 1
    t.repeatIf (t.main.b != 0))

/-- `IND` (rule R559). -/
def execInd (s : State) : Result :=
  .next ((s.blockIn (-1)).cost 16)

/-- `INDR` (rule R560). -/
def execIndr (s : State) : Result :=
  .next (let t := s.blockIn (-1)
    t.repeatIf (t.main.b != 0))

/-- `OUTI` (rule R561). -/
def execOuti (s : State) : Result :=
  .next ((s.blockOut 1).cost 16)

/-- `OTIR` (rule R562). -/
def execOtir (s : State) : Result :=
  .next (let t := s.blockOut 1
    t.repeatIf (t.main.b != 0))

/-- `OUTD` (rule R563). -/
def execOutd (s : State) : Result :=
  .next ((s.blockOut (-1)).cost 16)

/-- `OTDR` (rule R564). -/
def execOtdr (s : State) : Result :=
  .next (let t := s.blockOut (-1)
    t.repeatIf (t.main.b != 0))

end Sys2Proof.Machine
end

