-- ==== Sys2Proof/Machine/Jump.lean ====
section
/-! DEFINITION. The jump, call and return group (48_jump_call.md). PC is that of the next instruction when a
meaning starts. -/

namespace Sys2Proof.Machine

/-- `PC <- PC +16 sext_16(e)` (rule R513). -/
def State.jumpRelative (e : Byte) (s : State) : State := s.setPc (s.pc + sext16 e)

/-- `push16(PC); PC <- target` (rules R518, R524). -/
def State.call (target : Word) (s : State) : State := (s.push16 s.pc).setPc target

/-- `PC <- pop16()` (rule R520). -/
def State.popPc (s : State) : State := s.afterPop.setPc s.popWord

/-- `JP nn` (rule R511). -/
def execJpNn (nn : Word) (s : State) : Result :=
  .next ((s.setPc nn).cost 10)

/-- `JP cc,nn` (rule R512). -/
def execJpCcNn (cc : Cond) (nn : Word) (s : State) : Result :=
  .next ((if s.cond cc then s.setPc nn else s).cost 10)

/-- `JR e` (rule R513). -/
def execJrE (e : Byte) (s : State) : Result :=
  .next ((s.jumpRelative e).cost 12)

/-- `JR cc,e` (rule R514). -/
def execJrCcE (cc : JrCond) (e : Byte) (s : State) : Result :=
  .next (if s.cond (JrCond.cond cc) then (s.jumpRelative e).cost 12 else s.cost 7)

/-- `DJNZ e` (rule R515). -/
def execDjnzE (e : Byte) (s : State) : Result :=
  .next (let t := s.setB (s.main.b - 1)
    if t.main.b != 0 then (t.jumpRelative e).cost 13 else t.cost 8)

/-- `JP (HL)` (rule R516). -/
def execJpHl (s : State) : Result :=
  .next ((s.setPc s.hl).cost 4)

/-- `JP (IX)` (rule R517). -/
def execJpIdx (x : Idx) (s : State) : Result :=
  .next ((s.setPc (s.idx x)).cost 8)

/-- `CALL nn` (rule R518). -/
def execCallNn (nn : Word) (s : State) : Result :=
  .next ((s.call nn).cost 17)

/-- `CALL cc,nn` (rule R519). -/
def execCallCcNn (cc : Cond) (nn : Word) (s : State) : Result :=
  .next (if s.cond cc then (s.call nn).cost 17 else s.cost 10)

/-- `RET` (rule R520). -/
def execRet (s : State) : Result :=
  .next (s.popPc.cost 10)

/-- `RET cc` (rule R521). -/
def execRetCc (cc : Cond) (s : State) : Result :=
  .next (if s.cond cc then s.popPc.cost 11 else s.cost 5)

/-- `RETI` (rule R522). -/
def execReti (s : State) : Result :=
  .next (s.returnFromInterrupt.cost 14)

/-- `RETN` (rule R523). The same for every ignored y. -/
def execRetn (s : State) : Result :=
  .next (s.returnFromInterrupt.cost 14)

/-- `RST p` (rule R524). -/
def execRstP (p : BitVec 3) (s : State) : Result :=
  .next ((s.call (p.setWidth 16 <<< 3)).cost 11)

end Sys2Proof.Machine
end

