-- ==== Sys2Proof/Machine/Load16.lean ====
section
/-! DEFINITION. The 16-bit load group (41_load16.md). -/

namespace Sys2Proof.Machine

/-- `LD dd,nn` (rule R240). -/
def execLdDdNn (dd : Pair) (nn : Word) (s : State) : Result :=
  .next ((s.setPair dd nn).cost 10)

/-- `LD IX,nn` (rule R241). -/
def execLdIdxNn (x : Idx) (nn : Word) (s : State) : Result :=
  .next ((s.setIdx x nn).cost 14)

/-- `LD HL,(nn)` (rule R242). -/
def execLdHlMemNn (nn : Word) (s : State) : Result :=
  .next (((s.afterReadWord nn).setHl (s.memWord nn)).cost 16)

/-- `LD dd,(nn)` (rule R243). -/
def execLdDdMemNn (dd : Pair) (nn : Word) (s : State) : Result :=
  .next (((s.afterReadWord nn).setPair dd (s.memWord nn)).cost 20)

/-- `LD IX,(nn)` (rule R244). -/
def execLdIdxMemNn (x : Idx) (nn : Word) (s : State) : Result :=
  .next (((s.afterReadWord nn).setIdx x (s.memWord nn)).cost 20)

/-- `LD (nn),HL` (rule R245). -/
def execLdMemNnHl (nn : Word) (s : State) : Result :=
  .next ((s.memWriteWord nn s.hl).cost 16)

/-- `LD (nn),dd` (rule R246). -/
def execLdMemNnDd (dd : Pair) (nn : Word) (s : State) : Result :=
  .next ((s.memWriteWord nn (s.pair dd)).cost 20)

/-- `LD (nn),IX` (rule R247). -/
def execLdMemNnIdx (x : Idx) (nn : Word) (s : State) : Result :=
  .next ((s.memWriteWord nn (s.idx x)).cost 20)

/-- `LD SP,HL` (rule R248). -/
def execLdSpHl (s : State) : Result :=
  .next ((s.setSp s.hl).cost 6)

/-- `LD SP,IX` (rule R249). -/
def execLdSpIdx (x : Idx) (s : State) : Result :=
  .next ((s.setSp (s.idx x)).cost 10)

/-- `PUSH qq` (rule R250). -/
def execPushQq (qq : StackPair) (s : State) : Result :=
  .next ((s.push16 (s.stackPair qq)).cost 11)

/-- `PUSH IX` (rule R251). -/
def execPushIdx (x : Idx) (s : State) : Result :=
  .next ((s.push16 (s.idx x)).cost 15)

/-- `POP qq` (rule R252). -/
def execPopQq (qq : StackPair) (s : State) : Result :=
  .next ((s.afterPop.setStackPair qq s.popWord).cost 10)

/-- `POP IX` (rule R253). -/
def execPopIdx (x : Idx) (s : State) : Result :=
  .next ((s.afterPop.setIdx x s.popWord).cost 14)

end Sys2Proof.Machine
end

