-- ==== Sys2Proof/Machine/Load8.lean ====
section
/-! DEFINITION. The 8-bit load group (40_load8.md). Every meaning starts after the instruction's bytes are
fetched, with PC at the next instruction and R advanced (00_scope.md rule R17). -/

namespace Sys2Proof.Machine

/-- `A <- MemRead(a, 1)` (rules R205 to R207). -/
def State.loadA (a : Word) (s : State) : State := (s.afterRead a).setA (s.memByte a)

/-- `A <- v` for v of I or R, with the flags of rules R216 and R217. -/
def State.loadAIr (v : Byte) (s : State) : State :=
  (s.setA v).setF (ldAIrFlags s.main.f v s.iff2)

/-- `LD r,r'` (rule R200). -/
def execLdRR (r r' : Reg8) (s : State) : Result :=
  .next ((s.setReg r (s.reg r')).cost 4)

/-- `LD r,n` (rule R201). -/
def execLdRN (r : Reg8) (n : Byte) (s : State) : Result :=
  .next ((s.setReg r n).cost 7)

/-- `LD r,(HL)` (rule R202). -/
def execLdRMemHl (r : Reg8) (s : State) : Result :=
  .next (((s.afterRead s.hl).setReg r (s.memByte s.hl)).cost 7)

/-- `LD (HL),r` (rule R203). -/
def execLdMemHlR (r : Reg8) (s : State) : Result :=
  .next ((s.memWrite s.hl (s.reg r)).cost 7)

/-- `LD (HL),n` (rule R204). -/
def execLdMemHlN (n : Byte) (s : State) : Result :=
  .next ((s.memWrite s.hl n).cost 10)

/-- `LD A,(BC)` (rule R205). -/
def execLdAMemBc (s : State) : Result :=
  .next ((s.loadA s.bc).cost 7)

/-- `LD A,(DE)` (rule R206). -/
def execLdAMemDe (s : State) : Result :=
  .next ((s.loadA s.de).cost 7)

/-- `LD A,(nn)` (rule R207). -/
def execLdAMemNn (nn : Word) (s : State) : Result :=
  .next ((s.loadA nn).cost 13)

/-- `LD (BC),A` (rule R208). -/
def execLdMemBcA (s : State) : Result :=
  .next ((s.memWrite s.bc s.main.a).cost 7)

/-- `LD (DE),A` (rule R209). -/
def execLdMemDeA (s : State) : Result :=
  .next ((s.memWrite s.de s.main.a).cost 7)

/-- `LD (nn),A` (rule R210). -/
def execLdMemNnA (nn : Word) (s : State) : Result :=
  .next ((s.memWrite nn s.main.a).cost 13)

/-- `LD r,(IX+d)` (rule R211). -/
def execLdRMemIdx (x : Idx) (r : Reg8) (d : Byte) (s : State) : Result :=
  .next (((s.afterRead (s.ea x d)).setReg r (s.memByte (s.ea x d))).cost 19)

/-- `LD (IX+d),r` (rule R212). -/
def execLdMemIdxR (x : Idx) (d : Byte) (r : Reg8) (s : State) : Result :=
  .next ((s.memWrite (s.ea x d) (s.reg r)).cost 19)

/-- `LD (IX+d),n` (rule R213). -/
def execLdMemIdxN (x : Idx) (d : Byte) (n : Byte) (s : State) : Result :=
  .next ((s.memWrite (s.ea x d) n).cost 19)

/-- `LD r,r' (index halves, r = IXH/IXL)` (rule R214). The destination is PH or PL. -/
def execLdHalfR (x : Idx) (half : Half) (r : HalfReg) (s : State) : Result :=
  .next ((s.setHalf x half (s.halfReg x r)).cost 8)

/-- `LD r,r' (index halves, r' = IXH/IXL)` (rule R214). The source is PH or PL. -/
def execLdRHalf (x : Idx) (r : Reg8) (half : Half) (s : State) : Result :=
  .next ((s.setReg r (s.half x half)).cost 8)

/-- `LD IXH/IXL,n` (rule R215). -/
def execLdHalfN (x : Idx) (half : Half) (n : Byte) (s : State) : Result :=
  .next ((s.setHalf x half n).cost 11)

/-- `LD A,I` (rule R216). -/
def execLdAI (s : State) : Result :=
  .next ((s.loadAIr s.i).cost 9)

/-- `LD A,R` (rule R217). R is already advanced for this instruction. -/
def execLdAR (s : State) : Result :=
  .next ((s.loadAIr s.r).cost 9)

/-- `LD I,A` (rule R218). -/
def execLdIA (s : State) : Result :=
  .next (({ s with i := s.main.a } : State).cost 9)

/-- `LD R,A` (rule R219). All eight bits are written. -/
def execLdRA (s : State) : Result :=
  .next (({ s with r := s.main.a } : State).cost 9)

end Sys2Proof.Machine
end

