-- ==== Sys2Proof/Machine/Rotate.lean ====
section
/-! DEFINITION. The rotate and shift group (46_rotate_shift.md). -/

namespace Sys2Proof.Machine

/-- An accumulator rotate: the result and the bit shifted out are those of the rotate `op`, and S, Z and PV stay
(rules R430 to R433). -/
def State.rotateA (op : RotOp) (s : State) : State :=
  let a := rotResult op (flagC s.main.f) s.main.a
  (s.setA a).setF (rotAFlags s.main.f a (rotCarry op s.main.a))

/-- RLD on A and the byte at HL (rule R467). -/
def State.rotateDigitLeft (s : State) : State :=
  let v := s.memByte s.hl
  let a := (s.main.a &&& 0xF0) ||| (v >>> 4)
  (((s.afterRead s.hl).memWrite s.hl ((v <<< 4) ||| (s.main.a &&& 0x0F))).setA a).setF
    (sz53pKeepC s.main.f a)

/-- RRD on A and the byte at HL (rule R468). -/
def State.rotateDigitRight (s : State) : State :=
  let v := s.memByte s.hl
  let a := (s.main.a &&& 0xF0) ||| (v &&& 0x0F)
  (((s.afterRead s.hl).memWrite s.hl ((s.main.a <<< 4) ||| (v >>> 4))).setA a).setF
    (sz53pKeepC s.main.f a)

/-- `RLCA` (rule R430). -/
def execRlca (s : State) : Result :=
  .next ((s.rotateA .rlc).cost 4)

/-- `RRCA` (rule R431). -/
def execRrca (s : State) : Result :=
  .next ((s.rotateA .rrc).cost 4)

/-- `RLA` (rule R432). -/
def execRla (s : State) : Result :=
  .next ((s.rotateA .rl).cost 4)

/-- `RRA` (rule R433). -/
def execRra (s : State) : Result :=
  .next ((s.rotateA .rr).cost 4)

/-- `RLC r` (rule R435). -/
def execRlcR (r : Reg8) (s : State) : Result :=
  .next (((s.setReg r (rot .rlc s.main.f (s.reg r)).1).setF (rot .rlc s.main.f (s.reg r)).2).cost 8)

/-- `RLC (HL)` (rule R436). -/
def execRlcMemHl (s : State) : Result :=
  .next ((s.modify (rot .rlc) s.hl).cost 15)

/-- `RLC (IX+d)` (rule R437). -/
def execRlcMemIdx (x : Idx) (d : Byte) (s : State) : Result :=
  .next ((s.modify (rot .rlc) (s.ea x d)).cost 23)

/-- `RLC (IX+d),r` (rule R438). -/
def execRlcMemIdxCopy (x : Idx) (d : Byte) (r : Reg8) (s : State) : Result :=
  .next (((s.modify (rot .rlc) (s.ea x d)).setReg r
    (rot .rlc s.main.f (s.memByte (s.ea x d))).1).cost 23)

/-- `RRC r` (rule R439). -/
def execRrcR (r : Reg8) (s : State) : Result :=
  .next (((s.setReg r (rot .rrc s.main.f (s.reg r)).1).setF (rot .rrc s.main.f (s.reg r)).2).cost 8)

/-- `RRC (HL)` (rule R440). -/
def execRrcMemHl (s : State) : Result :=
  .next ((s.modify (rot .rrc) s.hl).cost 15)

/-- `RRC (IX+d)` (rule R441). -/
def execRrcMemIdx (x : Idx) (d : Byte) (s : State) : Result :=
  .next ((s.modify (rot .rrc) (s.ea x d)).cost 23)

/-- `RRC (IX+d),r` (rule R442). -/
def execRrcMemIdxCopy (x : Idx) (d : Byte) (r : Reg8) (s : State) : Result :=
  .next (((s.modify (rot .rrc) (s.ea x d)).setReg r
    (rot .rrc s.main.f (s.memByte (s.ea x d))).1).cost 23)

/-- `RL r` (rule R443). -/
def execRlR (r : Reg8) (s : State) : Result :=
  .next (((s.setReg r (rot .rl s.main.f (s.reg r)).1).setF (rot .rl s.main.f (s.reg r)).2).cost 8)

/-- `RL (HL)` (rule R444). -/
def execRlMemHl (s : State) : Result :=
  .next ((s.modify (rot .rl) s.hl).cost 15)

/-- `RL (IX+d)` (rule R445). -/
def execRlMemIdx (x : Idx) (d : Byte) (s : State) : Result :=
  .next ((s.modify (rot .rl) (s.ea x d)).cost 23)

/-- `RL (IX+d),r` (rule R446). -/
def execRlMemIdxCopy (x : Idx) (d : Byte) (r : Reg8) (s : State) : Result :=
  .next (((s.modify (rot .rl) (s.ea x d)).setReg r
    (rot .rl s.main.f (s.memByte (s.ea x d))).1).cost 23)

/-- `RR r` (rule R447). -/
def execRrR (r : Reg8) (s : State) : Result :=
  .next (((s.setReg r (rot .rr s.main.f (s.reg r)).1).setF (rot .rr s.main.f (s.reg r)).2).cost 8)

/-- `RR (HL)` (rule R448). -/
def execRrMemHl (s : State) : Result :=
  .next ((s.modify (rot .rr) s.hl).cost 15)

/-- `RR (IX+d)` (rule R449). -/
def execRrMemIdx (x : Idx) (d : Byte) (s : State) : Result :=
  .next ((s.modify (rot .rr) (s.ea x d)).cost 23)

/-- `RR (IX+d),r` (rule R450). -/
def execRrMemIdxCopy (x : Idx) (d : Byte) (r : Reg8) (s : State) : Result :=
  .next (((s.modify (rot .rr) (s.ea x d)).setReg r
    (rot .rr s.main.f (s.memByte (s.ea x d))).1).cost 23)

/-- `SLA r` (rule R451). -/
def execSlaR (r : Reg8) (s : State) : Result :=
  .next (((s.setReg r (rot .sla s.main.f (s.reg r)).1).setF (rot .sla s.main.f (s.reg r)).2).cost 8)

/-- `SLA (HL)` (rule R452). -/
def execSlaMemHl (s : State) : Result :=
  .next ((s.modify (rot .sla) s.hl).cost 15)

/-- `SLA (IX+d)` (rule R453). -/
def execSlaMemIdx (x : Idx) (d : Byte) (s : State) : Result :=
  .next ((s.modify (rot .sla) (s.ea x d)).cost 23)

/-- `SLA (IX+d),r` (rule R454). -/
def execSlaMemIdxCopy (x : Idx) (d : Byte) (r : Reg8) (s : State) : Result :=
  .next (((s.modify (rot .sla) (s.ea x d)).setReg r
    (rot .sla s.main.f (s.memByte (s.ea x d))).1).cost 23)

/-- `SRA r` (rule R455). -/
def execSraR (r : Reg8) (s : State) : Result :=
  .next (((s.setReg r (rot .sra s.main.f (s.reg r)).1).setF (rot .sra s.main.f (s.reg r)).2).cost 8)

/-- `SRA (HL)` (rule R456). -/
def execSraMemHl (s : State) : Result :=
  .next ((s.modify (rot .sra) s.hl).cost 15)

/-- `SRA (IX+d)` (rule R457). -/
def execSraMemIdx (x : Idx) (d : Byte) (s : State) : Result :=
  .next ((s.modify (rot .sra) (s.ea x d)).cost 23)

/-- `SRA (IX+d),r` (rule R458). -/
def execSraMemIdxCopy (x : Idx) (d : Byte) (r : Reg8) (s : State) : Result :=
  .next (((s.modify (rot .sra) (s.ea x d)).setReg r
    (rot .sra s.main.f (s.memByte (s.ea x d))).1).cost 23)

/-- `SLL r` (rule R459). -/
def execSllR (r : Reg8) (s : State) : Result :=
  .next (((s.setReg r (rot .sll s.main.f (s.reg r)).1).setF (rot .sll s.main.f (s.reg r)).2).cost 8)

/-- `SLL (HL)` (rule R460). -/
def execSllMemHl (s : State) : Result :=
  .next ((s.modify (rot .sll) s.hl).cost 15)

/-- `SLL (IX+d)` (rule R461). -/
def execSllMemIdx (x : Idx) (d : Byte) (s : State) : Result :=
  .next ((s.modify (rot .sll) (s.ea x d)).cost 23)

/-- `SLL (IX+d),r` (rule R462). -/
def execSllMemIdxCopy (x : Idx) (d : Byte) (r : Reg8) (s : State) : Result :=
  .next (((s.modify (rot .sll) (s.ea x d)).setReg r
    (rot .sll s.main.f (s.memByte (s.ea x d))).1).cost 23)

/-- `SRL r` (rule R463). -/
def execSrlR (r : Reg8) (s : State) : Result :=
  .next (((s.setReg r (rot .srl s.main.f (s.reg r)).1).setF (rot .srl s.main.f (s.reg r)).2).cost 8)

/-- `SRL (HL)` (rule R464). -/
def execSrlMemHl (s : State) : Result :=
  .next ((s.modify (rot .srl) s.hl).cost 15)

/-- `SRL (IX+d)` (rule R465). -/
def execSrlMemIdx (x : Idx) (d : Byte) (s : State) : Result :=
  .next ((s.modify (rot .srl) (s.ea x d)).cost 23)

/-- `SRL (IX+d),r` (rule R466). -/
def execSrlMemIdxCopy (x : Idx) (d : Byte) (r : Reg8) (s : State) : Result :=
  .next (((s.modify (rot .srl) (s.ea x d)).setReg r
    (rot .srl s.main.f (s.memByte (s.ea x d))).1).cost 23)

/-- `RLD` (rule R467). -/
def execRld (s : State) : Result :=
  .next (s.rotateDigitLeft.cost 18)

/-- `RRD` (rule R468). -/
def execRrd (s : State) : Result :=
  .next (s.rotateDigitRight.cost 18)

end Sys2Proof.Machine
end

