-- ==== Sys2Proof/Machine/Prefix.lean ====
section
/-! DEFINITION. The decode outcomes that are not ordinary instructions (30_encoding.md rules R158, R159;
44_general_cpu.md rules R387, R388): a standalone prefix, and an instruction whose prefix is ignored. -/

namespace Sys2Proof.Machine

/-- A standalone prefix: `shadow <- all` (rules R158, R387). -/
def State.prefixStep (s : State) : State := ({ s with shadow := .all } : State).cost 4

/-- What an answer becomes when its step costs t more. -/
def Result.addCost (t : Nat) : Result → Result
  | .next s => .next (s.cost t)
  | .fault f => .fault f
  | .refused r => .refused r

/-- The unprefixed instructions an index prefix does not change, with the meanings of files 40 to 49; any other
term is no instruction with an ignored prefix (rule R159). -/
def execBase (i : Instr) (s : State) : Result :=
  match i with
  | .nop => execNop s
  | .ldRR r r' => execLdRR r r' s
  | .ldRN r n => execLdRN r n s
  | .ldAMemBc => execLdAMemBc s
  | .ldAMemDe => execLdAMemDe s
  | .ldAMemNn nn => execLdAMemNn nn s
  | .ldMemBcA => execLdMemBcA s
  | .ldMemDeA => execLdMemDeA s
  | .ldMemNnA nn => execLdMemNnA nn s
  | .ldDdNn dd nn => execLdDdNn dd nn s
  | .pushQq qq => execPushQq qq s
  | .popQq qq => execPopQq qq s
  | .exDeHl => execExDeHl s
  | .exAfAf => execExAfAf s
  | .exx => execExx s
  | .addAR r => execAddAR r s
  | .addAN n => execAddAN n s
  | .adcAR r => execAdcAR r s
  | .adcAN n => execAdcAN n s
  | .subR r => execSubR r s
  | .subN n => execSubN n s
  | .sbcAR r => execSbcAR r s
  | .sbcAN n => execSbcAN n s
  | .andR r => execAndR r s
  | .andN n => execAndN n s
  | .xorR r => execXorR r s
  | .xorN n => execXorN n s
  | .orR r => execOrR r s
  | .orN n => execOrN n s
  | .cpR r => execCpR r s
  | .cpN n => execCpN n s
  | .incR r => execIncR r s
  | .decR r => execDecR r s
  | .daa => execDaa s
  | .cpl => execCpl s
  | .ccf => execCcf s
  | .scf => execScf s
  | .di => execDi s
  | .ei => execEi s
  | .incSs ss => execIncSs ss s
  | .decSs ss => execDecSs ss s
  | .rlca => execRlca s
  | .rrca => execRrca s
  | .rla => execRla s
  | .rra => execRra s
  | .jpNn nn => execJpNn nn s
  | .jpCcNn cc nn => execJpCcNn cc nn s
  | .jrE e => execJrE e s
  | .djnzE e => execDjnzE e s
  | .jrCcE cc e => execJrCcE cc e s
  | .callNn nn => execCallNn nn s
  | .callCcNn cc nn => execCallCcNn cc nn s
  | .ret => execRet s
  | .retCc cc => execRetCc cc s
  | .rstP p => execRstP p s
  | .inAN n => execInAN n s
  | .outNA n => execOutNA n s
  | _ => .refused .noSuchBase

/-- `standalone prefix DD/FD before DD/FD` (rule R387). -/
def execPrefixThenIndex (s : State) : Result :=
  .next s.prefixStep

/-- `standalone prefix DD/FD before ED` (rule R387). -/
def execPrefixThenEd (s : State) : Result :=
  .next s.prefixStep

/-- `HALT (prefix ignored)` (rules R376, R388). -/
def execHaltIgnored (s : State) : Result :=
  .next (({ s with halted := true } : State).cost 8)

/-- `prefix-ignored` (rule R388): the unprefixed instruction at 4 T-states more. -/
def execPrefixIgnored (base : Instr) (s : State) : Result :=
  (execBase base s).addCost 4

end Sys2Proof.Machine
end

