-- ==== Sys2Proof/Machine/Dispatch.lean ====
section
/-! DEFINITION. The meaning of every instruction, one arm per constructor of `Instr`. -/

namespace Sys2Proof.Machine

def exec (i : Instr) (s : State) : Host.Outcome State Fault Refusal :=
  match i with
  | .prefixThenIndex _ => Sys2Proof.Machine.execPrefixThenIndex s
  | .prefixThenEd _ => Sys2Proof.Machine.execPrefixThenEd s
  | .rlcMemIdx x d => Sys2Proof.Machine.execRlcMemIdx x d s
  | .rlcMemIdxCopy x d r => Sys2Proof.Machine.execRlcMemIdxCopy x d r s
  | .rrcMemIdx x d => Sys2Proof.Machine.execRrcMemIdx x d s
  | .rrcMemIdxCopy x d r => Sys2Proof.Machine.execRrcMemIdxCopy x d r s
  | .rlMemIdx x d => Sys2Proof.Machine.execRlMemIdx x d s
  | .rlMemIdxCopy x d r => Sys2Proof.Machine.execRlMemIdxCopy x d r s
  | .rrMemIdx x d => Sys2Proof.Machine.execRrMemIdx x d s
  | .rrMemIdxCopy x d r => Sys2Proof.Machine.execRrMemIdxCopy x d r s
  | .slaMemIdx x d => Sys2Proof.Machine.execSlaMemIdx x d s
  | .slaMemIdxCopy x d r => Sys2Proof.Machine.execSlaMemIdxCopy x d r s
  | .sraMemIdx x d => Sys2Proof.Machine.execSraMemIdx x d s
  | .sraMemIdxCopy x d r => Sys2Proof.Machine.execSraMemIdxCopy x d r s
  | .sllMemIdx x d => Sys2Proof.Machine.execSllMemIdx x d s
  | .sllMemIdxCopy x d r => Sys2Proof.Machine.execSllMemIdxCopy x d r s
  | .srlMemIdx x d => Sys2Proof.Machine.execSrlMemIdx x d s
  | .srlMemIdxCopy x d r => Sys2Proof.Machine.execSrlMemIdxCopy x d r s
  | .bitMemIdx x d b _ => Sys2Proof.Machine.execBitMemIdx x d b s
  | .resMemIdx x d b => Sys2Proof.Machine.execResMemIdx x d b s
  | .resMemIdxCopy x d b r => Sys2Proof.Machine.execResMemIdxCopy x d b r s
  | .setMemIdx x d b => Sys2Proof.Machine.execSetMemIdx x d b s
  | .setMemIdxCopy x d b r => Sys2Proof.Machine.execSetMemIdxCopy x d b r s
  | .ldIdxNn x nn => Sys2Proof.Machine.execLdIdxNn x nn s
  | .ldMemNnIdx x nn => Sys2Proof.Machine.execLdMemNnIdx x nn s
  | .ldIdxMemNn x nn => Sys2Proof.Machine.execLdIdxMemNn x nn s
  | .incIdx x => Sys2Proof.Machine.execIncIdx x s
  | .decIdx x => Sys2Proof.Machine.execDecIdx x s
  | .addIdxPp x pp => Sys2Proof.Machine.execAddIdxPp x pp s
  | .incMemIdx x d => Sys2Proof.Machine.execIncMemIdx x d s
  | .decMemIdx x d => Sys2Proof.Machine.execDecMemIdx x d s
  | .ldMemIdxN x d n => Sys2Proof.Machine.execLdMemIdxN x d n s
  | .incHalf x half => Sys2Proof.Machine.execIncHalf x half s
  | .decHalf x half => Sys2Proof.Machine.execDecHalf x half s
  | .ldHalfN x half n => Sys2Proof.Machine.execLdHalfN x half n s
  | .haltIgnored _ => Sys2Proof.Machine.execHaltIgnored s
  | .ldRMemIdx x r d => Sys2Proof.Machine.execLdRMemIdx x r d s
  | .ldMemIdxR x d r => Sys2Proof.Machine.execLdMemIdxR x d r s
  | .ldHalfR x half r => Sys2Proof.Machine.execLdHalfR x half r s
  | .ldRHalf x r half => Sys2Proof.Machine.execLdRHalf x r half s
  | .addAMemIdx x d => Sys2Proof.Machine.execAddAMemIdx x d s
  | .addAHalf x half => Sys2Proof.Machine.execAddAHalf x half s
  | .adcAMemIdx x d => Sys2Proof.Machine.execAdcAMemIdx x d s
  | .adcAHalf x half => Sys2Proof.Machine.execAdcAHalf x half s
  | .subMemIdx x d => Sys2Proof.Machine.execSubMemIdx x d s
  | .subHalf x half => Sys2Proof.Machine.execSubHalf x half s
  | .sbcAMemIdx x d => Sys2Proof.Machine.execSbcAMemIdx x d s
  | .sbcAHalf x half => Sys2Proof.Machine.execSbcAHalf x half s
  | .andMemIdx x d => Sys2Proof.Machine.execAndMemIdx x d s
  | .andHalf x half => Sys2Proof.Machine.execAndHalf x half s
  | .xorMemIdx x d => Sys2Proof.Machine.execXorMemIdx x d s
  | .xorHalf x half => Sys2Proof.Machine.execXorHalf x half s
  | .orMemIdx x d => Sys2Proof.Machine.execOrMemIdx x d s
  | .orHalf x half => Sys2Proof.Machine.execOrHalf x half s
  | .cpMemIdx x d => Sys2Proof.Machine.execCpMemIdx x d s
  | .cpHalf x half => Sys2Proof.Machine.execCpHalf x half s
  | .pushIdx x => Sys2Proof.Machine.execPushIdx x s
  | .popIdx x => Sys2Proof.Machine.execPopIdx x s
  | .exSpIdx x => Sys2Proof.Machine.execExSpIdx x s
  | .jpIdx x => Sys2Proof.Machine.execJpIdx x s
  | .ldSpIdx x => Sys2Proof.Machine.execLdSpIdx x s
  | .prefixIgnored _ base => Sys2Proof.Machine.execPrefixIgnored base s
  | .rlcMemHl => Sys2Proof.Machine.execRlcMemHl s
  | .rlcR r => Sys2Proof.Machine.execRlcR r s
  | .rrcMemHl => Sys2Proof.Machine.execRrcMemHl s
  | .rrcR r => Sys2Proof.Machine.execRrcR r s
  | .rlMemHl => Sys2Proof.Machine.execRlMemHl s
  | .rlR r => Sys2Proof.Machine.execRlR r s
  | .rrMemHl => Sys2Proof.Machine.execRrMemHl s
  | .rrR r => Sys2Proof.Machine.execRrR r s
  | .slaMemHl => Sys2Proof.Machine.execSlaMemHl s
  | .slaR r => Sys2Proof.Machine.execSlaR r s
  | .sraMemHl => Sys2Proof.Machine.execSraMemHl s
  | .sraR r => Sys2Proof.Machine.execSraR r s
  | .sllMemHl => Sys2Proof.Machine.execSllMemHl s
  | .sllR r => Sys2Proof.Machine.execSllR r s
  | .srlMemHl => Sys2Proof.Machine.execSrlMemHl s
  | .srlR r => Sys2Proof.Machine.execSrlR r s
  | .bitMemHl b => Sys2Proof.Machine.execBitMemHl b s
  | .bitR b r => Sys2Proof.Machine.execBitR b r s
  | .resMemHl b => Sys2Proof.Machine.execResMemHl b s
  | .resR b r => Sys2Proof.Machine.execResR b r s
  | .setMemHl b => Sys2Proof.Machine.execSetMemHl b s
  | .setR b r => Sys2Proof.Machine.execSetR b r s
  | .inFC => Sys2Proof.Machine.execInFC s
  | .inRC r => Sys2Proof.Machine.execInRC r s
  | .outCZero => Sys2Proof.Machine.execOutCZero s
  | .outCR r => Sys2Proof.Machine.execOutCR r s
  | .sbcHlSs ss => Sys2Proof.Machine.execSbcHlSs ss s
  | .adcHlSs ss => Sys2Proof.Machine.execAdcHlSs ss s
  | .ldMemNnDd dd nn => Sys2Proof.Machine.execLdMemNnDd dd nn s
  | .ldDdMemNn dd nn => Sys2Proof.Machine.execLdDdMemNn dd nn s
  | .neg _ => Sys2Proof.Machine.execNeg s
  | .reti => Sys2Proof.Machine.execReti s
  | .retn _ => Sys2Proof.Machine.execRetn s
  | .im0 _ => Sys2Proof.Machine.execIm0 s
  | .im1 _ => Sys2Proof.Machine.execIm1 s
  | .im2 _ => Sys2Proof.Machine.execIm2 s
  | .ldIA => Sys2Proof.Machine.execLdIA s
  | .ldRA => Sys2Proof.Machine.execLdRA s
  | .ldAI => Sys2Proof.Machine.execLdAI s
  | .ldAR => Sys2Proof.Machine.execLdAR s
  | .rrd => Sys2Proof.Machine.execRrd s
  | .rld => Sys2Proof.Machine.execRld s
  | .ldi => Sys2Proof.Machine.execLdi s
  | .ldir => Sys2Proof.Machine.execLdir s
  | .ldd => Sys2Proof.Machine.execLdd s
  | .lddr => Sys2Proof.Machine.execLddr s
  | .cpi => Sys2Proof.Machine.execCpi s
  | .cpir => Sys2Proof.Machine.execCpir s
  | .cpd => Sys2Proof.Machine.execCpd s
  | .cpdr => Sys2Proof.Machine.execCpdr s
  | .ini => Sys2Proof.Machine.execIni s
  | .inir => Sys2Proof.Machine.execInir s
  | .ind => Sys2Proof.Machine.execInd s
  | .indr => Sys2Proof.Machine.execIndr s
  | .outi => Sys2Proof.Machine.execOuti s
  | .otir => Sys2Proof.Machine.execOtir s
  | .outd => Sys2Proof.Machine.execOutd s
  | .otdr => Sys2Proof.Machine.execOtdr s
  | .nopEd _ => Sys2Proof.Machine.execNopEd s
  | .nop => Sys2Proof.Machine.execNop s
  | .halt => Sys2Proof.Machine.execHalt s
  | .ldRMemHl r => Sys2Proof.Machine.execLdRMemHl r s
  | .ldMemHlR r => Sys2Proof.Machine.execLdMemHlR r s
  | .ldRR r r' => Sys2Proof.Machine.execLdRR r r' s
  | .ldMemHlN n => Sys2Proof.Machine.execLdMemHlN n s
  | .ldRN r n => Sys2Proof.Machine.execLdRN r n s
  | .ldAMemBc => Sys2Proof.Machine.execLdAMemBc s
  | .ldAMemDe => Sys2Proof.Machine.execLdAMemDe s
  | .ldAMemNn nn => Sys2Proof.Machine.execLdAMemNn nn s
  | .ldMemBcA => Sys2Proof.Machine.execLdMemBcA s
  | .ldMemDeA => Sys2Proof.Machine.execLdMemDeA s
  | .ldMemNnA nn => Sys2Proof.Machine.execLdMemNnA nn s
  | .ldHlMemNn nn => Sys2Proof.Machine.execLdHlMemNn nn s
  | .ldMemNnHl nn => Sys2Proof.Machine.execLdMemNnHl nn s
  | .ldDdNn dd nn => Sys2Proof.Machine.execLdDdNn dd nn s
  | .ldSpHl => Sys2Proof.Machine.execLdSpHl s
  | .pushQq qq => Sys2Proof.Machine.execPushQq qq s
  | .popQq qq => Sys2Proof.Machine.execPopQq qq s
  | .exDeHl => Sys2Proof.Machine.execExDeHl s
  | .exAfAf => Sys2Proof.Machine.execExAfAf s
  | .exx => Sys2Proof.Machine.execExx s
  | .exSpHl => Sys2Proof.Machine.execExSpHl s
  | .addAMemHl => Sys2Proof.Machine.execAddAMemHl s
  | .addAR r => Sys2Proof.Machine.execAddAR r s
  | .addAN n => Sys2Proof.Machine.execAddAN n s
  | .adcAMemHl => Sys2Proof.Machine.execAdcAMemHl s
  | .adcAR r => Sys2Proof.Machine.execAdcAR r s
  | .adcAN n => Sys2Proof.Machine.execAdcAN n s
  | .subMemHl => Sys2Proof.Machine.execSubMemHl s
  | .subR r => Sys2Proof.Machine.execSubR r s
  | .subN n => Sys2Proof.Machine.execSubN n s
  | .sbcAMemHl => Sys2Proof.Machine.execSbcAMemHl s
  | .sbcAR r => Sys2Proof.Machine.execSbcAR r s
  | .sbcAN n => Sys2Proof.Machine.execSbcAN n s
  | .andMemHl => Sys2Proof.Machine.execAndMemHl s
  | .andR r => Sys2Proof.Machine.execAndR r s
  | .andN n => Sys2Proof.Machine.execAndN n s
  | .xorMemHl => Sys2Proof.Machine.execXorMemHl s
  | .xorR r => Sys2Proof.Machine.execXorR r s
  | .xorN n => Sys2Proof.Machine.execXorN n s
  | .orMemHl => Sys2Proof.Machine.execOrMemHl s
  | .orR r => Sys2Proof.Machine.execOrR r s
  | .orN n => Sys2Proof.Machine.execOrN n s
  | .cpMemHl => Sys2Proof.Machine.execCpMemHl s
  | .cpR r => Sys2Proof.Machine.execCpR r s
  | .cpN n => Sys2Proof.Machine.execCpN n s
  | .incMemHl => Sys2Proof.Machine.execIncMemHl s
  | .incR r => Sys2Proof.Machine.execIncR r s
  | .decMemHl => Sys2Proof.Machine.execDecMemHl s
  | .decR r => Sys2Proof.Machine.execDecR r s
  | .daa => Sys2Proof.Machine.execDaa s
  | .cpl => Sys2Proof.Machine.execCpl s
  | .ccf => Sys2Proof.Machine.execCcf s
  | .scf => Sys2Proof.Machine.execScf s
  | .di => Sys2Proof.Machine.execDi s
  | .ei => Sys2Proof.Machine.execEi s
  | .addHlSs ss => Sys2Proof.Machine.execAddHlSs ss s
  | .incSs ss => Sys2Proof.Machine.execIncSs ss s
  | .decSs ss => Sys2Proof.Machine.execDecSs ss s
  | .rlca => Sys2Proof.Machine.execRlca s
  | .rrca => Sys2Proof.Machine.execRrca s
  | .rla => Sys2Proof.Machine.execRla s
  | .rra => Sys2Proof.Machine.execRra s
  | .jpNn nn => Sys2Proof.Machine.execJpNn nn s
  | .jpCcNn cc nn => Sys2Proof.Machine.execJpCcNn cc nn s
  | .jrE e => Sys2Proof.Machine.execJrE e s
  | .djnzE e => Sys2Proof.Machine.execDjnzE e s
  | .jrCcE cc e => Sys2Proof.Machine.execJrCcE cc e s
  | .jpHl => Sys2Proof.Machine.execJpHl s
  | .callNn nn => Sys2Proof.Machine.execCallNn nn s
  | .callCcNn cc nn => Sys2Proof.Machine.execCallCcNn cc nn s
  | .ret => Sys2Proof.Machine.execRet s
  | .retCc cc => Sys2Proof.Machine.execRetCc cc s
  | .rstP p => Sys2Proof.Machine.execRstP p s
  | .inAN n => Sys2Proof.Machine.execInAN n s
  | .outNA n => Sys2Proof.Machine.execOutNA n s

end Sys2Proof.Machine
end

