-- ==== Sys2Proof/Machine/Owner.lean ====
section
/-! DEFINITION. What the bus owner does between steps (20_memory.md rules R103, R114; 70_reset_and_hazards.md rule
R716): it stores bytes of plain RAM, takes addresses out of its foreign ranges, and lists port answers. -/

namespace Sys2Proof.Machine

/-- A range without one address: the part below it and the part above it. -/
def rangeWithout (a : Word) (r : Nat × Nat) : List (Nat × Nat) :=
  if inRange a r then [(r.1, a.toNat - r.1), (a.toNat + 1, r.1 + r.2 - (a.toNat + 1))] else [r]

/-- The bus owner holds an address as plain RAM from now on. -/
def Bus.claim (a : Word) (b : Bus) : Bus := { b with foreign := b.foreign.flatMap (rangeWithout a) }

/-- The bus owner stores a byte of plain RAM; no bus call of the core is made. -/
def Bus.poke (a : Word) (v : Byte) (b : Bus) : Bus := { b with ram := Memory.write b.ram a.toNat v }

/-- The bus owner holds the bytes of a list as plain RAM from an address on, modulo 65536. -/
def Bus.place : List Byte → Word → Bus → Bus
  | [], _, b => b
  | v :: vs, a, b => Bus.place vs (a + 1) ((b.claim a).poke a v)

/-- The bus owner answers reads of a port with a byte. -/
def Bus.listPort (p : Word) (v : Byte) (b : Bus) : Bus :=
  { b with ports := (p.toNat, v) :: b.ports.filter fun c => c.1 ≠ p.toNat }

/-- The state whose next step fetches the bytes given: they stand at PC, the core is not halted and no request
is there (log entry 10). -/
def State.withFetchBytes (bs : List Byte) (s : State) : State :=
  { s with bus := s.bus.place bs s.pc, halted := false, nmiPending := false, intLine := false }

end Sys2Proof.Machine
end

