-- ==== Sys2Proof/Machine/Step.lean ====
section
/-! DEFINITION. One step of the core (60_exceptions.md rule R603). -/

namespace Sys2Proof.Machine

/-- One call of the execute entry point (rules R603, R609): an NMI, else an INT, else a halted cycle, else one
instruction or one standalone prefix. -/
def step (s : State) : Host.Outcome State Fault Refusal :=
  if s.takesNmi then .next (acceptNmi s)
  else if s.takesInt then acceptInt s
  else if s.halted then .next (haltedCycle s)
  else exec (fetch s).1 (fetch s).2.noShadow

/-- The state with an instruction word stored where the next step fetches. -/
def State.withFetchWord (s : State) (nbits w : Nat) : State := s.withFetchBytes (wordBytes nbits w)

end Sys2Proof.Machine
end

