-- ==== Sys2Proof/Machine/Driver.lean ====
section
/-! DEFINITION. The host of the core (70_reset_and_hazards.md rules R700 to R704, R716 to R719): construction, the
reset operation, what the driver may do between steps, and a run. No part of it is a step. -/

namespace Sys2Proof.Machine

/-! ### Reset (rule R700) -/

/-- `reset()`: every item of core state; the driver's inputs, `eiDelay` and the bus owner are not touched. -/
def State.hostReset (regs : ResetRegs) (s : State) : State :=
  { s with
    main := regs.main, alt := regs.alt, ix := regs.ix, iy := regs.iy, sp := regs.sp
    pc := 0x0000, i := 0x00, r := 0x00
    iff1 := false, iff2 := false, im := .im0
    halted := false, shadow := .none, nmiPending := false
    tstates := 0, decode := .base }

/-! ### Construction (rules R702, R704) -/

/-- A register set before its widths are checked. -/
structure BankRecord where
  a : Nat
  f : Nat
  b : Nat
  c : Nat
  d : Nat
  e : Nat
  h : Nat
  l : Nat
deriving DecidableEq, Repr

/-- A `resetRegs` before its widths are checked. -/
structure ResetRecord where
  main : BankRecord
  alt : BankRecord
  ix : Nat
  iy : Nat
  sp : Nat
deriving DecidableEq, Repr

/-- A complete state record, as a snapshot loader gives it. The decode state is Base at every boundary. -/
structure StateRecord where
  regs : ResetRecord
  pc : Nat
  i : Nat
  r : Nat
  iff1 : Bool
  iff2 : Bool
  im : Nat
  halted : Bool
  shadow : Shadow
  nmiPending : Bool
  intLine : Bool
  intAckByte : Nat
  tstates : Nat
deriving DecidableEq, Repr

/-- The only errors there are (rule R704). -/
inductive ConfigError where
  /-- `InvalidInterruptMode(value)`. -/
  | invalidInterruptMode (value : Nat)
  /-- `InvalidRegisterValue(name)`. -/
  | invalidRegisterValue (name : String)
deriving DecidableEq, Repr

/-- A value of w bits, or the error that names the register it does not fit. -/
def checkWidth (w : Nat) (name : String) (v : Nat) : Except ConfigError (BitVec w) :=
  if v < 2 ^ w then .ok (BitVec.ofNat w v) else .error (.invalidRegisterValue name)

/-- An interrupt mode, or the error that names its value. -/
def checkMode (v : Nat) : Except ConfigError IntMode :=
  match v with
  | 0 => .ok .im0
  | 1 => .ok .im1
  | 2 => .ok .im2
  | _ => .error (.invalidInterruptMode v)

/-- A checked register set; `mark` is what its register names end in. -/
def BankRecord.check (mark : String) (k : BankRecord) : Except ConfigError RegBank := do
  return ⟨← checkWidth 8 ("A" ++ mark) k.a, ← checkWidth 8 ("F" ++ mark) k.f,
    ← checkWidth 8 ("B" ++ mark) k.b, ← checkWidth 8 ("C" ++ mark) k.c,
    ← checkWidth 8 ("D" ++ mark) k.d, ← checkWidth 8 ("E" ++ mark) k.e,
    ← checkWidth 8 ("H" ++ mark) k.h, ← checkWidth 8 ("L" ++ mark) k.l⟩

/-- A checked `resetRegs`. -/
def ResetRecord.check (k : ResetRecord) : Except ConfigError ResetRegs := do
  return ⟨← k.main.check "", ← k.alt.check "'", ← checkWidth 16 "IX" k.ix, ← checkWidth 16 "IY" k.iy,
    ← checkWidth 16 "SP" k.sp⟩

/-- Construction in the reset state. The driver's inputs start as those of `State.reset` (log entry 7). -/
def construct (bus : Bus) (eiDelay : Bool) (regs : ResetRecord) : Except ConfigError State := do
  let k ← regs.check
  return ({ State.reset with bus := bus, eiDelay := eiDelay } : State).hostReset k

/-- Construction from a state record: the mode is checked first, then the widths (log entry 14), and then the
record is the state unchanged. -/
def constructFrom (bus : Bus) (eiDelay : Bool) (k : StateRecord) : Except ConfigError State := do
  let im ← checkMode k.im
  let regs ← k.regs.check
  return { main := regs.main, alt := regs.alt, ix := regs.ix, iy := regs.iy, sp := regs.sp
           pc := ← checkWidth 16 "PC" k.pc, i := ← checkWidth 8 "I" k.i, r := ← checkWidth 8 "R" k.r
           iff1 := k.iff1, iff2 := k.iff2, im := im, halted := k.halted, shadow := k.shadow
           nmiPending := k.nmiPending, intLine := k.intLine
           intAckByte := ← checkWidth 8 "intAckByte" k.intAckByte
           tstates := k.tstates, decode := .base, eiDelay := eiDelay, bus := bus }

/-- A register set as a record. -/
def RegBank.record (k : RegBank) : BankRecord :=
  ⟨k.a.toNat, k.f.toNat, k.b.toNat, k.c.toNat, k.d.toNat, k.e.toNat, k.h.toNat, k.l.toNat⟩

/-- A state as the record that describes it. -/
def State.record (s : State) : StateRecord where
  regs := ⟨s.main.record, s.alt.record, s.ix.toNat, s.iy.toNat, s.sp.toNat⟩
  pc := s.pc.toNat
  i := s.i.toNat
  r := s.r.toNat
  iff1 := s.iff1
  iff2 := s.iff2
  im := match s.im with
    | .im0 => 0
    | .im1 => 1
    | .im2 => 2
  halted := s.halted
  shadow := s.shadow
  nmiPending := s.nmiPending
  intLine := s.intLine
  intAckByte := s.intAckByte.toNat
  tstates := s.tstates

/-! ### What the driver and the bus owner do between steps (rules R716, R719) -/

/-- One interaction between two steps. -/
inductive DriverAction where
  /-- Set or clear the INT line, with the acknowledge byte. -/
  | setInt (line : Bool) (ack : Byte)
  /-- Latch a non-maskable request. -/
  | latchNmi
  /-- The reset operation. -/
  | reset
  /-- Set the T-state counter to 0. -/
  | zeroCounter
  /-- The bus owner stores a byte of plain RAM. -/
  | pokeMem (a : Word) (v : Byte)
  /-- The bus owner lists the answer of a port. -/
  | setPort (p : Word) (v : Byte)
deriving DecidableEq, Repr

/-- What an interaction does to the state. -/
def DriverAction.apply (regs : ResetRegs) (x : DriverAction) (s : State) : State :=
  match x with
  | .setInt line ack => { s with intLine := line, intAckByte := ack }
  | .latchNmi => { s with nmiPending := true }
  | .reset => s.hostReset regs
  | .zeroCounter => { s with tstates := 0 }
  | .pokeMem a v => { s with bus := s.bus.poke a v }
  | .setPort p v => { s with bus := s.bus.listPort p v }

/-! ### A run (rule R718) -/

/-- The cost of the step at a state, what the execute call returns (rule R711); `none` where the step is refused. -/
def stepCost (s : State) : Option Nat :=
  match step s with
  | .next t => some (t.tstates - s.tstates)
  | .fault _ => none
  | .refused _ => none

/-- A core in the hands of its driver: the state, the parameter `resetRegs`, and the model-only mark `refused`
(rule R601). -/
structure Session where
  core : State
  resetRegs : ResetRegs
  refused : Bool
deriving DecidableEq, Repr

/-- One execute call. A refused step changes nothing and sets the mark, which nothing clears (rule R601). -/
def Session.execute (k : Session) : Session :=
  match step k.core with
  | .next t => { k with core := t }
  | .fault _ => k
  | .refused _ => { k with refused := true }

/-- One interaction. -/
def Session.act (k : Session) (x : DriverAction) : Session :=
  { k with core := x.apply k.resetRegs k.core }

/-- The steps of a run: at each boundary the interactions the driver gives, then one step. -/
def Session.run : List (List DriverAction) → Session → Session
  | [], k => k
  | xs :: rest, k => ((xs.foldl Session.act k).execute).run rest

/-- A quiescent state: halted, maskable interrupts disabled, no request latched (rule R718 (b)). -/
def State.quiescent (s : State) : Bool := s.halted && !s.iff1 && !s.nmiPending

/-- End (a): the run has taken its n steps, and none was refused. -/
def Session.endedAfter (n taken : Nat) (k : Session) : Bool := taken == n && !k.refused

/-- End (b): the state is quiescent, the host has declared that it will latch no NMI, and no step was refused. -/
def Session.endedQuiescent (noMoreNmi : Bool) (k : Session) : Bool :=
  k.core.quiescent && noMoreNmi && !k.refused

/-- A run as the host makes it: the core as constructed or reset, the interactions at each boundary (one list
before each step), and the boundary from which on the host has declared that it will latch no NMI, if it has
(log entry 15). -/
structure HostRun where
  start : Session
  inputs : List (List DriverAction)
  noNmiFrom : Option Nat
deriving DecidableEq, Repr

/-- The two points at one of which the host defines a run to end. -/
inductive EndRule where
  /-- After exactly n steps, the fuel. -/
  | after (n : Nat)
  /-- At the first quiescent boundary. -/
  | quiescent
deriving DecidableEq, Repr

/-- The interaction keeps the promise to latch no NMI. -/
def DriverAction.latchesNone : DriverAction → Bool
  | .latchNmi => false
  | .setInt _ _ | .reset | .zeroCounter | .pokeMem _ _ | .setPort _ _ => true

/-- The interaction stays inside a run: a reset begins another one. -/
def DriverAction.staysInRun : DriverAction → Bool
  | .reset => false
  | .setInt _ _ | .latchNmi | .zeroCounter | .pokeMem _ _ | .setPort _ _ => true

/-- At boundary j the host has declared that it will latch no NMI, there or later. -/
def HostRun.declaredAt (h : HostRun) (j : Nat) : Bool :=
  match h.noNmiFrom with
  | none => false
  | some m => decide (m ≤ j)

/-- The inputs make one run: it starts at a boundary, nothing resets the core inside it, and the host keeps what it
has declared. -/
def HostRun.wf (h : HostRun) : Bool :=
  h.start.core.decode == .base && h.inputs.all (·.all DriverAction.staysInRun) &&
    match h.noNmiFrom with
    | none => true
    | some m => (h.inputs.drop m).all (·.all DriverAction.latchesNone)

/-- The core at boundary j, after j steps and before the interactions there. -/
def HostRun.boundary (h : HostRun) (j : Nat) : Session := h.start.run (h.inputs.take j)

/-- Boundary j answers to the host's end rule. -/
def HostRun.isEnd (h : HostRun) (e : EndRule) (j : Nat) : Bool :=
  match e with
  | .after n => (h.boundary j).endedAfter n j
  | .quiescent => (h.boundary j).endedQuiescent (h.declaredAt j)

/-- The boundary at which the run ends: the first that answers to the rule; `none` where it has not ended. -/
def HostRun.endBoundary (h : HostRun) (e : EndRule) : Option Nat :=
  (List.range (h.inputs.length + 1)).find? (h.isEnd e)

/-- The end state: the whole core state at that boundary. -/
def HostRun.endState (h : HostRun) (e : EndRule) : Option State :=
  (h.endBoundary e).map fun j => (h.boundary j).core

end Sys2Proof.Machine
end

