-- ==== Sys2Proof/Safety.lean ====
section
/-! DEFINITION. What counts as a safe state and a safe run, and the words the claims are stated in: what an
instruction leaves unchanged, where it stores, which bus calls it makes, what its flags say. -/

namespace Sys2Proof.Machine

/-! ### The invariant -/

/-- What every step keeps: RAM has its one canonical form, the decode state is Base (10_state.md rule R56),
maskable interrupts are enabled only where the backup flip-flop says so (rule R49), a halted core has
nothing inhibited, and the EI shadow stands only where EI has enabled interrupts (rule R52). -/
structure State.Inv (s : State) : Prop where
  ram : Memory.wf s.bus.ram = true
  decode : s.decode = .base
  backup : s.iff1 = true → s.iff2 = true
  halted : s.halted = true → s.shadow = .none
  afterEi : s.shadow = .int → s.iff1 = true ∧ s.eiDelay = true

/-- A safe run: the core meets the invariant and no step was refused. -/
structure Session.Safe (k : Session) : Prop where
  inv : k.core.Inv
  live : k.refused = false

/-! ### Records that construction checks (70_reset_and_hazards.md rule R704) -/

/-- A field of a record: its name, its width in bits, its value. -/
structure RecordField where
  name : String
  width : Nat
  value : Nat
deriving DecidableEq, Repr

/-- The value fits the width. -/
def RecordField.fits (x : RecordField) : Bool := decide (x.value < 2 ^ x.width)

/-- The eight registers of a set (10_state.md rules R40, R44); `mark` is what their names end in. -/
def BankRecord.fields (mark : String) (k : BankRecord) : List RecordField :=
  [⟨"A" ++ mark, 8, k.a⟩, ⟨"F" ++ mark, 8, k.f⟩, ⟨"B" ++ mark, 8, k.b⟩, ⟨"C" ++ mark, 8, k.c⟩,
    ⟨"D" ++ mark, 8, k.d⟩, ⟨"E" ++ mark, 8, k.e⟩, ⟨"H" ++ mark, 8, k.h⟩, ⟨"L" ++ mark, 8, k.l⟩]

/-- The nineteen registers of a `resetRegs` (rule R78). -/
def ResetRecord.fields (k : ResetRecord) : List RecordField :=
  k.main.fields "" ++ k.alt.fields "'" ++ [⟨"IX", 16, k.ix⟩, ⟨"IY", 16, k.iy⟩, ⟨"SP", 16, k.sp⟩]

/-- The fields of a state record that have a width: those nineteen, and four more (10_state.md's summary table). -/
def StateRecord.fields (k : StateRecord) : List RecordField :=
  k.regs.fields ++ [⟨"PC", 16, k.pc⟩, ⟨"I", 8, k.i⟩, ⟨"R", 8, k.r⟩, ⟨"intAckByte", 8, k.intAckByte⟩]

/-- A refused construction names a field that does not fit: wherever there is one, the answer is the error of one
(the first half, rule R704), and of the first in the fields' order (the second half, log entry 14). -/
def NamesMisfit (fields : List RecordField) (answer : Except ConfigError State) : Prop :=
  (∀ x ∈ fields, x.fits = false →
    ∃ y ∈ fields, y.fits = false ∧ answer = .error (.invalidRegisterValue y.name)) ∧
  ∀ y, fields.find? (fun x => !x.fits) = some y → answer = .error (.invalidRegisterValue y.name)

/-! ### Frames -/

/-- The items of state that are no memory and no bus. -/
inductive Place where
  | a | f | b | c | d | e | h | l
  | a' | f' | b' | c' | d' | e' | h' | l'
  | ix | iy | sp | pc | i | r
  | iff1 | iff2 | im | halted | shadow
  | nmiPending | intLine | intAckByte | tstates | decode | eiDelay
deriving DecidableEq, Repr

/-- An interrupt mode as its number (rule R50). -/
def IntMode.number : IntMode → Nat
  | .im0 => 0 | .im1 => 1 | .im2 => 2

/-- The values of the interrupt-inhibit latch, numbered. -/
def Shadow.number : Shadow → Nat
  | .none => 0 | .int => 1 | .all => 2

end Sys2Proof.Machine

namespace Sys2Proof

/-- The decode states, numbered. -/
def DecodeState.number : DecodeState → Nat
  | .base => 0 | .prefixCb => 1 | .prefixEd => 2
  | .prefixIdx .ix => 3 | .prefixIdx .iy => 4 | .prefixIdxCb .ix => 5 | .prefixIdxCb .iy => 6

end Sys2Proof

namespace Sys2Proof.Machine

/-- What stands at a place, as a number. -/
def State.look (s : State) : Place → Nat
  | .a => s.main.a.toNat | .f => s.main.f.toNat | .b => s.main.b.toNat | .c => s.main.c.toNat
  | .d => s.main.d.toNat | .e => s.main.e.toNat | .h => s.main.h.toNat | .l => s.main.l.toNat
  | .a' => s.alt.a.toNat | .f' => s.alt.f.toNat | .b' => s.alt.b.toNat | .c' => s.alt.c.toNat
  | .d' => s.alt.d.toNat | .e' => s.alt.e.toNat | .h' => s.alt.h.toNat | .l' => s.alt.l.toNat
  | .ix => s.ix.toNat | .iy => s.iy.toNat | .sp => s.sp.toNat | .pc => s.pc.toNat
  | .i => s.i.toNat | .r => s.r.toNat
  | .iff1 => s.iff1.toNat | .iff2 => s.iff2.toNat | .im => s.im.number
  | .halted => s.halted.toNat | .shadow => s.shadow.number
  | .nmiPending => s.nmiPending.toNat | .intLine => s.intLine.toNat
  | .intAckByte => s.intAckByte.toNat | .tstates => s.tstates
  | .decode => s.decode.number | .eiDelay => s.eiDelay.toNat

/-- Every place is as it was, but for those listed. -/
def KeepsBut (ps : List Place) (s t : State) : Prop := ∀ p, p ∉ ps → t.look p = s.look p

/-- Every byte of RAM is as it was, but for the addresses listed. -/
def RamKeepsBut (stores : List Word) (s t : State) : Prop :=
  ∀ a, a ∉ stores → t.bus.ramByte a = s.bus.ramByte a

/-- Where the bus owner holds an address as plain RAM, it holds v there now. -/
def Holds (s t : State) (a : Word) (v : Byte) : Prop := s.bus.isForeign a = false → t.bus.ramByte a = v

/-- The bus owner's parameters are as they were. -/
def SameOwner (s t : State) : Prop := t.bus.foreign = s.bus.foreign ∧ t.bus.ports = s.bus.ports

/-- What an instruction may change, and what it costs. -/
structure Footprint where
  /-- T-states. -/
  cost : Nat
  /-- The places it may change, the T-state counter apart. -/
  places : List Place := []
  /-- The addresses it stores to. -/
  stores : List Word := []
  /-- The bus calls it makes, newest first. -/
  calls : List BusCall := []

/-- From s to t nothing but the footprint is changed, and all of its calls and its cost are there. -/
def Within (k : Footprint) (s t : State) : Prop :=
  t.tstates = s.tstates + k.cost ∧ KeepsBut (.tstates :: k.places) s t ∧ RamKeepsBut k.stores s t ∧
    SameOwner s t ∧ t.bus.log = k.calls ++ s.bus.log

/-- The instruction answers a next state, within its footprint, of which `post` is true. -/
def Runs (i : Instr) (s : State) (k : Footprint) (post : State → Prop) : Prop :=
  ∃ t, exec i s = .next t ∧ Within k s t ∧ post t

/-! ### Places of operands -/

/-- The place of a register (30_encoding.md rule R143). -/
def Reg8.place : Reg8 → Place
  | .b => .b | .c => .c | .d => .d | .e => .e | .h => .h | .l => .l | .a => .a

/-- The place of an index register. -/
def Idx.place : Idx → Place
  | .ix => .ix
  | .iy => .iy

/-- The places of a register pair (10_state.md rule R41). -/
def Pair.places : Pair → List Place
  | .bc => [.b, .c] | .de => [.d, .e] | .hl => [.h, .l] | .sp => [.sp]

/-- The places of a stacked pair (rule R41). -/
def StackPair.places : StackPair → List Place
  | .bc => [.b, .c] | .de => [.d, .e] | .hl => [.h, .l] | .af => [.a, .f]

/-! ### Bus calls -/

/-- One read of a byte now. -/
def State.readCall (s : State) (a : Word) : BusCall := .readByte a (s.memByte a)

/-- The two reads of a word now, newest first (20_memory.md rule R104). -/
def State.wordCalls (s : State) (a : Word) : List BusCall :=
  [(s.afterRead a).readCall (a + 1), s.readCall a]

/-- The word at an address of plain RAM, little-endian (rule R104). -/
def Bus.ramWord (b : Bus) (a : Word) : Word := w16 (b.ramByte (a + 1)) (b.ramByte a)

/-! ### Flags -/

/-- The eight bits of F by their names (10_state.md rules R58, R60). -/
structure FlagBits where
  s : Bool
  z : Bool
  f5 : Bool
  h : Bool
  f3 : Bool
  pv : Bool
  n : Bool
  c : Bool
deriving DecidableEq, Repr

/-- The flags of a byte. -/
def FlagBits.of (f : Byte) : FlagBits :=
  ⟨f.getLsbD 7, f.getLsbD 6, f.getLsbD 5, f.getLsbD 4, f.getLsbD 3, f.getLsbD 2, f.getLsbD 1, f.getLsbD 0⟩

/-- The flags of a state. -/
def State.flags (s : State) : FlagBits := FlagBits.of s.main.f

/-- The flags S, Z, F5 and F3 of a result, with the other four given (rule R64). -/
def FlagBits.result (v : Byte) (h pv n c : Bool) : FlagBits where
  s := v.getLsbD 7
  z := v == 0
  f5 := v.getLsbD 5
  h := h
  f3 := v.getLsbD 3
  pv := pv
  n := n
  c := c

/-- The number of 1 bits is even, bit by bit (rule R65). -/
def evenOnes (v : Byte) : Bool :=
  !(v.getLsbD 0 ^^ v.getLsbD 1 ^^ v.getLsbD 2 ^^ v.getLsbD 3 ^^ v.getLsbD 4 ^^ v.getLsbD 5 ^^
    v.getLsbD 6 ^^ v.getLsbD 7)

/-- A signed result does not fit 8 bits. -/
def overflows8 (x : Int) : Bool := x < -128 || 127 < x

/-- A signed result does not fit 16 bits. -/
def overflows16 (x : Int) : Bool := x < -32768 || 32767 < x

/-! ### Operands of the arithmetic instructions -/

/-- The operand of an operation on A (43_alu8.md rules R310 to R349). -/
inductive Source where
  | reg (r : Reg8)
  | imm (n : Byte)
  | memHl
  | memIdx (x : Idx) (d : Byte)
  | half (x : Idx) (k : Half)
deriving DecidableEq, Repr

/-- The operand byte. -/
def Source.value (s : State) : Source → Byte
  | .reg r => s.reg r
  | .imm n => n
  | .memHl => s.memByte s.hl
  | .memIdx x d => s.memByte (s.ea x d)
  | .half x k => s.half x k

/-- The reads the operand takes. -/
def Source.calls (s : State) : Source → List BusCall
  | .memHl => [s.readCall s.hl]
  | .memIdx x d => [s.readCall (s.ea x d)]
  | .reg _ | .imm _ | .half _ _ => []

/-- The cost of the instruction. -/
def Source.cost : Source → Nat
  | .reg _ => 4 | .imm _ => 7 | .memHl => 7 | .memIdx _ _ => 19 | .half _ _ => 8

/-- The instruction `alu[y]` on the operand: 0 ADD, 1 ADC, 2 SUB, 3 SBC, 4 AND, 5 XOR, 6 OR, 7 CP (30_encoding.md
rule R147). -/
def Source.instr (y : BitVec 3) : Source → Instr
  | .reg r => aluR y r
  | .imm n => aluN y n
  | .memHl => aluMemHl y
  | .memIdx x d => aluMemIdx y x d
  | .half x k => aluHalf y x k

/-- The operand an instruction reads, changes and writes back. -/
inductive Target where
  | reg (r : Reg8)
  | memHl
  | memIdx (x : Idx) (d : Byte)
  | half (x : Idx) (k : Half)
  /-- Indexed memory, with the result copied to a register (30_encoding.md rule R156). -/
  | copy (x : Idx) (d : Byte) (r : Reg8)
deriving DecidableEq, Repr

/-- The address of the operand, where it is in memory. -/
def Target.address (s : State) : Target → Option Word
  | .memHl => some s.hl
  | .memIdx x d | .copy x d _ => some (s.ea x d)
  | .reg _ | .half _ _ => none

/-- The byte before. -/
def Target.old (s : State) : Target → Byte
  | .reg r => s.reg r
  | .memHl => s.memByte s.hl
  | .memIdx x d | .copy x d _ => s.memByte (s.ea x d)
  | .half x k => s.half x k

/-- The places the result goes to. -/
def Target.places : Target → List Place
  | .reg r | .copy _ _ r => [Reg8.place r]
  | .half x _ => [Idx.place x]
  | .memHl | .memIdx _ _ => []

/-- The addresses the result goes to. -/
def Target.stores (s : State) (o : Target) : List Word := (o.address s).toList

/-- One read, then one write of the same address, newest first (20_memory.md rule R110). -/
def Target.calls (s : State) (v : Byte) (o : Target) : List BusCall :=
  match o.address s with
  | some a => [.writeByte a v, s.readCall a]
  | none => []

/-- The operand holds v after. -/
def Target.holds (s t : State) (v : Byte) : Target → Prop
  | .reg r => t.reg r = v
  | .memHl => Holds s t s.hl v
  | .memIdx x d => Holds s t (s.ea x d) v
  | .half x .high => t.half x .high = v ∧ t.half x .low = s.half x .low
  | .half x .low => t.half x .low = v ∧ t.half x .high = s.half x .high
  | .copy x d r => t.reg r = v ∧ Holds s t (s.ea x d) v

/-- The instruction `INC` of the operand (rules R350 to R353); there is none that copies. -/
def Target.inc : Target → Option Instr
  | .reg r => some (.incR r)
  | .memHl => some .incMemHl
  | .memIdx x d => some (.incMemIdx x d)
  | .half x k => some (.incHalf x k)
  | .copy _ _ _ => none

/-- The instruction `DEC` of the operand (rules R354 to R357). -/
def Target.dec : Target → Option Instr
  | .reg r => some (.decR r)
  | .memHl => some .decMemHl
  | .memIdx x d => some (.decMemIdx x d)
  | .half x k => some (.decHalf x k)
  | .copy _ _ _ => none

/-- The cost of INC and DEC. -/
def Target.incDecCost : Target → Nat
  | .reg _ => 4 | .memHl => 11 | .memIdx _ _ => 23 | .half _ _ => 8 | .copy _ _ _ => 0

/-- The instruction `rot[y]` of the operand: 0 RLC, 1 RRC, 2 RL, 3 RR, 4 SLA, 5 SRA, 6 SLL, 7 SRL (30_encoding.md
rule R148); there is none on a half of P. -/
def Target.rotate (y : BitVec 3) : Target → Option Instr
  | .reg r => some (rotR y r)
  | .memHl => some (rotMemHl y)
  | .memIdx x d => some (rotMemIdx y x d)
  | .copy x d r => some (rotMemIdxCopy y x d r)
  | .half _ _ => none

/-- The instruction `RES b` of the operand. -/
def Target.res (b : BitVec 3) : Target → Option Instr
  | .reg r => some (.resR b r)
  | .memHl => some (.resMemHl b)
  | .memIdx x d => some (.resMemIdx x d b)
  | .copy x d r => some (.resMemIdxCopy x d b r)
  | .half _ _ => none

/-- The instruction `SET b` of the operand. -/
def Target.set (b : BitVec 3) : Target → Option Instr
  | .reg r => some (.setR b r)
  | .memHl => some (.setMemHl b)
  | .memIdx x d => some (.setMemIdx x d b)
  | .copy x d r => some (.setMemIdxCopy x d b r)
  | .half _ _ => none

/-- The cost of a CB instruction that writes its operand. -/
def Target.cbCost : Target → Nat
  | .reg _ => 8 | .memHl => 15 | .memIdx _ _ => 23 | .copy _ _ _ => 23 | .half _ _ => 0

/-! ### Length and refresh from the first bytes (30_encoding.md rules R160, R162) -/

/-- The length of an unprefixed instruction, from the lists of rule R160. -/
def baseLength (b : Byte) : Nat :=
  if b ∈ ([0x01, 0x11, 0x21, 0x31, 0x22, 0x2A, 0x32, 0x3A, 0xC3, 0xCD, 0xC2, 0xCA, 0xD2, 0xDA, 0xE2, 0xEA,
    0xF2, 0xFA, 0xC4, 0xCC, 0xD4, 0xDC, 0xE4, 0xEC, 0xF4, 0xFC] : List Byte) then 3
  else if b ∈ ([0x06, 0x0E, 0x16, 0x1E, 0x26, 0x2E, 0x36, 0x3E, 0xC6, 0xCE, 0xD6, 0xDE, 0xE6, 0xEE, 0xF6, 0xFE,
    0xD3, 0xDB, 0x10, 0x18, 0x20, 0x28, 0x30, 0x38] : List Byte) then 2
  else 1

/-- The opcodes to which rule R155 (b) applies: a displacement follows them under an index prefix. -/
def takesDisplacement (b : Byte) : Bool :=
  let y := fieldY b
  let z := fieldZ b
  b == 0x34 || b == 0x35 || b == 0x36 || (fieldX b == 1 && (y == 6 || z == 6) && b != 0x76) ||
    (fieldX b == 2 && z == 6)

/-- The length of the instruction whose first bytes are b0 and b1 (rule R160). -/
def lengthFrom (b0 b1 : Byte) : Nat :=
  if b0 = 0xCB then 2
  else if b0 = 0xED then if b1 &&& 0xC7 = 0x43 then 4 else 2
  else if b0 = 0xDD ∨ b0 = 0xFD then
    if b1 = 0xDD ∨ b1 = 0xFD ∨ b1 = 0xED then 1
    else if b1 = 0xCB then 4
    else 1 + baseLength b1 + if takesDisplacement b1 then 1 else 0
  else baseLength b0

/-- The refresh advance of the instruction whose first bytes are b0 and b1 (rule R162). -/
def refreshFrom (b0 b1 : Byte) : Nat :=
  if b0 = 0xCB ∨ b0 = 0xED then 2
  else if b0 = 0xDD ∨ b0 = 0xFD then if b1 = 0xDD ∨ b1 = 0xFD ∨ b1 = 0xED then 1 else 2
  else 1

/-! ### Fetching (30_encoding.md rules R150, R158) -/

/-- The answers to n reads in a row from an address on. -/
def State.answers : Nat → Word → State → List Byte
  | 0, _, _ => []
  | n + 1, a, s => s.memByte a :: (s.afterRead a).answers n (a + 1)

/-- The state after n reads in a row from an address on. -/
def State.afterReads : Nat → Word → State → State
  | 0, _, s => s
  | n + 1, a, s => (s.afterRead a).afterReads n (a + 1)

/-- The reads a fetch makes: one for each byte of the instruction, and one more that classifies a standalone
prefix. -/
def fetchReads : Instr → Nat
  | .prefixThenIndex _ | .prefixThenEd _ => 2
  | i => i.length

/-- The state in which an instruction's meaning starts (00_scope.md rule R17): its bytes are read, PC is past
them, R is advanced, nothing is inhibited. -/
def State.fetched (i : Instr) (s : State) : State :=
  ({ s.afterReads (fetchReads i) s.pc with
      pc := s.pc + BitVec.ofNat 16 i.length, decode := .base, shadow := .none } : State).incR i.m1Cycles

/-- The core runs an instruction at this boundary: no request is accepted and it is not halted (60_exceptions.md
rule R603). -/
def State.runsInstruction (s : State) : Bool := !s.takesNmi && !s.takesInt && !s.halted

/-! ### More words of the statements -/

/-- R is advanced by k: the low seven bits count, bit 7 stays (10_state.md rule R48). -/
def AdvancesR (k : Nat) (s t : State) : Prop :=
  t.r.toNat % 128 = (s.r.toNat + k) % 128 ∧ t.r.getLsbD 7 = s.r.getLsbD 7

/-- A condition, by the names of the flags (30_encoding.md rule R146). -/
def Cond.met (f : FlagBits) : Cond → Bool
  | .nz => !f.z | .z => f.z | .nc => !f.c | .c => f.c
  | .po => !f.pv | .pe => f.pv | .p => !f.s | .m => f.s

/-- The four conditions of JR (rule R514). -/
def JrCond.met (f : FlagBits) : JrCond → Bool
  | .nz => !f.z | .z => f.z | .nc => !f.c | .c => f.c

/-- The two stores of a push of v, at SP - 1 and SP - 2 (20_memory.md rule R106). -/
def State.pushStores (s : State) : List Word := [s.sp - 1, s.sp - 2]

/-- The two writes of a push of v, newest first (rule R106). -/
def State.pushCalls (s : State) (v : Word) : List BusCall :=
  [.writeByte (s.sp - 2) (lo v), .writeByte (s.sp - 1) (hi v)]

/-- A word was pushed from s to t: SP went down by 2, and the word lies little-endian at the new SP. -/
def Pushed (s t : State) (v : Word) : Prop :=
  t.sp = s.sp - 2 ∧ Holds s t (s.sp - 1) (hi v) ∧ Holds s t (s.sp - 2) (lo v)

/-- The word two reads in a row answer, low byte first (rule R104). -/
def State.wordAnswer (s : State) (a : Word) : Word :=
  w16 ((s.afterRead a).memByte (a + 1)) (s.memByte a)

/-- The correction of DAA and C after it, row by row as the table of 44_general_cpu.md rule R370 has them, from C
and H before and the two nibbles of A. -/
def daaRow (c h : Bool) (high low : Nat) : Byte × Bool :=
  match c, h, decide (low ≤ 9) with
  | true, false, true => (0x60, true)
  | true, false, false => (0x66, true)
  | true, true, _ => (0x66, true)
  | false, false, true => if high ≤ 9 then (0x00, false) else (0x60, true)
  | false, false, false => if high ≤ 8 then (0x06, false) else (0x66, true)
  | false, true, true => if high ≤ 9 then (0x06, false) else (0x66, true)
  | false, true, false => if high ≤ 8 then (0x06, false) else (0x66, true)

/-- The result of `rot[y]` as an arithmetic of numbers (46_rotate_shift.md rule R434). -/
def rotated (y : BitVec 3) (c : Bool) (v : Byte) : Byte :=
  let n := v.toNat
  BitVec.ofNat 8 (match y.toNat with
    | 0 => 2 * n + n / 128
    | 1 => n / 2 + 128 * (n % 2)
    | 2 => 2 * n + c.toNat
    | 3 => n / 2 + 128 * c.toNat
    | 4 => 2 * n
    | 5 => n / 2 + 128 * (n / 128)
    | 6 => 2 * n + 1
    | _ => n / 2)

/-- The bit `rot[y]` moves out: bit 7 where it goes left (y even), bit 0 where it goes right (rule R434). -/
def rotatedOut (y : BitVec 3) (v : Byte) : Bool := if y.getLsbD 0 then v.getLsbD 0 else v.getLsbD 7

/-- The accumulator rotate that moves as `rot[y]` does, y = 0 to 3 (rules R430 to R433). -/
def accRotate (y : BitVec 2) : Instr :=
  match y.toNat with
  | 0 => .rlca
  | 1 => .rrca
  | 2 => .rla
  | _ => .rra

/-- The block transfer instructions: upwards or downwards, once or repeating (rules R276 to R279). -/
def blockTransfer : Bool → Bool → Instr
  | false, false => .ldi | false, true => .ldir | true, false => .ldd | true, true => .lddr

/-- The block search instructions (rules R280 to R283). -/
def blockSearch : Bool → Bool → Instr
  | false, false => .cpi | false, true => .cpir | true, false => .cpd | true, true => .cpdr

/-- The block input instructions (49_io.md rules R557 to R560). -/
def blockInput : Bool → Bool → Instr
  | false, false => .ini | false, true => .inir | true, false => .ind | true, true => .indr

/-- The block output instructions (rules R561 to R564). -/
def blockOutput : Bool → Bool → Instr
  | false, false => .outi | false, true => .otir | true, false => .outd | true, true => .otdr

/-- An address register after a block instruction: one up, or one down. -/
def moved (down : Bool) (w : Word) : Word := if down then w - 1 else w + 1

/-- PC after a block instruction: back at its ED byte where it goes on (42_exchange_block.md rule R275). -/
def blockPc (again : Bool) (s : State) : Word := if again then s.pc - 2 else s.pc

/-- The cost of a block instruction (rule R275). -/
def blockCost (again : Bool) : Nat := if again then 21 else 16

end Sys2Proof.Machine
end

