-- ==== Sys2Proof/Certificates/Slice0/Obligations.lean ====
section
/-! DEFINITION. The statements for the provers. Each docstring names the rules of spec/ it formalises. -/

open Sys2Proof Sys2Proof.Machine

/-! ### Encoding -/

/-- Words written out from the encodings of spec/ decode to the instructions they stand for (30_encoding.md
rules R152 to R156, R158, R159). -/
def Obligations.EncodingWordsDecode : Prop :=
  decodeTableWord 8 0b01010001 = some (.ldRR .d .c) ∧
  decodeTableWord 24 0x12345611 = some (.ldDdNn .de 0x3456) ∧
  decodeTableWord 8 0b00001000 = some .exAfAf ∧
  decodeTableWord 16 0xB0ED = some .ldir ∧
  decodeTableWord 24 0xFF9EDD = some (.sbcAMemIdx .ix 0xFF) ∧
  decodeTableWord 16 0x2CFD = some (.incHalf .iy .low) ∧
  decodeTableWord 8 0b00100111 = some .daa ∧
  decodeTableWord 16 0x76ED = some (.im1 1) ∧
  decodeTableWord 16 0x7AED = some (.adcHlSs .sp) ∧
  decodeTableWord 32 0x3305CBFD = some (.sllMemIdxCopy .iy 0x05 .e) ∧
  decodeTableWord 32 0x6E06CBDD = some (.bitMemIdx .ix 0x06 5 6) ∧
  decodeTableWord 16 0xBFCB = some (.resR 7 .a) ∧
  decodeTableWord 16 0xEE30 = some (.jrCcE .nc 0xEE) ∧
  decodeTableWord 24 0x1234EC = some (.callCcNn .pe 0x1234) ∧
  decodeTableWord 16 0x68ED = some (.inRC .l) ∧
  decodeTableWord 16 0x77ED = some (.nopEd 0x77) ∧
  decodeTableWord 16 0xEDFD = some (.prefixThenEd .iy) ∧
  decodeTableWord 24 0x053EDD = some (.prefixIgnored .ix (.ldRN .a 0x05))

/-- Encoding a well-formed instruction and decoding the bytes gives it back, with the rest of the bytes, whatever
they are; a standalone prefix is one only before a prefix byte (rules R140, R141, R152 to R159). -/
def Obligations.DecodeOfEncode : Prop :=
  ∀ (i : Instr) (rest : List Byte), i.wf = true → followedBy i rest = true →
    decode (encode i ++ rest) = .ok (i, rest)

/-- Four bytes always hold an instruction: no byte sequence is illegal, what is decoded is well formed, and its
encoding is the bytes it was decoded from (rules R140, R157). -/
def Obligations.EveryByteSequenceDecodes : Prop :=
  ∀ (b0 b1 b2 b3 : Byte) (more : List Byte), ∃ (i : Instr) (rest : List Byte),
    decode (b0 :: b1 :: b2 :: b3 :: more) = .ok (i, rest) ∧ i.wf = true ∧ followedBy i rest = true ∧
      encode i ++ rest = b0 :: b1 :: b2 :: b3 :: more

/-- The length and the refresh advance of an instruction are those its first two bytes give (rules R160,
R162). -/
def Obligations.LengthAndRefreshFromFirstBytes : Prop :=
  ∀ (b0 b1 b2 b3 : Byte) (more rest : List Byte) (i : Instr),
    decode (b0 :: b1 :: b2 :: b3 :: more) = .ok (i, rest) →
      i.length = lengthFrom b0 b1 ∧ i.m1Cycles = refreshFrom b0 b1

/-! ### The step -/

/-- Where no request is accepted and the core is not halted, a step runs the instruction that the bytes at PC
decode to, in the state after its fetch: each byte read once, PC past it, R advanced, nothing
inhibited (60_exceptions.md rule R603; rules R150, R158, R162). -/
def Obligations.StepRunsDecodedInstruction : Prop :=
  ∀ (s : State) (i : Instr) (rest : List Byte), s.runsInstruction = true →
    decode (s.answers 4 s.pc) = .ok (i, rest) → step s = exec i (s.fetched i)

/-- No step faults, and a step is refused exactly where a maskable interrupt is accepted in mode 0 with an
acknowledge byte that is no RST opcode; a refused step changes nothing, and no step and no reset
clears the mark it sets (rules R600, R601). -/
def Obligations.StepFaultsNeverAndRefusesOnce : Prop :=
  (∀ (s : State) (x : Fault), step s ≠ .fault x) ∧
  (∀ (s : State) (q : Refusal), step s = .refused q ↔
    s.nmiPending = false ∧ s.intLine = true ∧ s.iff1 = true ∧ s.shadow = .none ∧ s.im = .im0 ∧
      s.intAckByte &&& 0xC7 ≠ 0xC7 ∧ q = .mode0AckNotRst s.intAckByte) ∧
  (∀ (k : Session) (q : Refusal), step k.core = .refused q → k.execute = { k with refused := true }) ∧
  (∀ (k : Session) (xs : List (List DriverAction)), k.refused = true → (k.run xs).refused = true)

/-- NMI acceptance, whatever IFF1, IM and the EI shadow are (rule R604). -/
def Obligations.NmiAcceptance : Prop :=
  ∀ s : State, Memory.wf s.bus.ram = true → s.nmiPending = true → s.shadow ≠ .all →
    ∃ t, step s = .next t ∧
      Within { cost := 11
               places := [.halted, .iff1, .r, .sp, .pc, .nmiPending, .shadow]
               stores := s.pushStores
               calls := s.pushCalls s.pc } s t ∧
      t.halted = false ∧ t.iff1 = false ∧ AdvancesR 1 s t ∧ Pushed s t s.pc ∧ t.pc = 0x0066 ∧
      t.nmiPending = false ∧ t.shadow = .none

/-- Maskable acceptance in mode 1, and in mode 0 with an RST opcode: the handler is at 0x0038, or at the RST's
target (rules R605 to R607). -/
def Obligations.IntAcceptanceAtFixedAddress : Prop :=
  ∀ (s : State) (p : BitVec 3), Memory.wf s.bus.ram = true → s.nmiPending = false → s.intLine = true →
    s.iff1 = true → s.shadow = .none →
    (s.im = .im1 ∧ p = 7 ∨ s.im = .im0 ∧ s.intAckByte = op8 3 p 7) →
    ∃ t, step s = .next t ∧
      Within { cost := 13
               places := [.halted, .iff1, .iff2, .r, .sp, .pc]
               stores := s.pushStores
               calls := s.pushCalls s.pc } s t ∧
      t.halted = false ∧ t.iff1 = false ∧ t.iff2 = false ∧ AdvancesR 1 s t ∧ Pushed s t s.pc ∧
      t.pc.toNat = 8 * p.toNat

/-- Maskable acceptance in mode 2: after the push the vector is read at I * 256 + the acknowledge byte, low byte
first, on a bus that holds those two addresses as plain RAM (rules R605, R608). -/
def Obligations.IntAcceptanceThroughVector : Prop :=
  ∀ (s : State) (v : Word), Memory.wf s.bus.ram = true → s.nmiPending = false → s.intLine = true →
    s.iff1 = true → s.shadow = .none → s.im = .im2 → v.toNat = s.i.toNat * 256 + s.intAckByte.toNat →
    s.bus.isForeign v = false → s.bus.isForeign (v + 1) = false →
    ∃ t, step s = .next t ∧
      Within { cost := 19
               places := [.halted, .iff1, .iff2, .r, .sp, .pc]
               stores := s.pushStores
               calls := [.readByte (v + 1) (t.bus.ramByte (v + 1)), .readByte v (t.bus.ramByte v)] ++
                 s.pushCalls s.pc } s t ∧
      t.halted = false ∧ t.iff1 = false ∧ t.iff2 = false ∧ AdvancesR 1 s t ∧ Pushed s t s.pc ∧
      t.pc = t.bus.ramWord v

/-- A halted core that accepts no request reads the byte at PC, ignores it, advances R by one, costs 4 T-states,
inhibits nothing and changes nothing else (44_general_cpu.md rule R379). -/
def Obligations.HaltedCycleOnlyRefreshes : Prop :=
  ∀ s : State, s.halted = true → s.takesNmi = false → s.takesInt = false →
    ∃ t, step s = .next t ∧
      Within { cost := 4, places := [.r, .shadow], calls := [s.readCall s.pc] } s t ∧
      AdvancesR 1 s t ∧ t.shadow = .none

/-- After EI with the delay no maskable request is accepted at the next boundary, an NMI is; after a standalone
prefix neither is; after EI without the delay a maskable request is (70_reset_and_hazards.md rules
R706, R707). -/
def Obligations.ShadowsInhibitRequests : Prop :=
  (∀ s t : State, s.eiDelay = true → exec .ei s = .next t → t.takesInt = false ∧
    t.takesNmi = s.nmiPending) ∧
  (∀ s t : State, s.eiDelay = false → s.shadow = .none → exec .ei s = .next t →
    t.takesInt = s.intLine) ∧
  (∀ (s t : State) (x : Idx), exec (.prefixThenIndex x) s = .next t ∨ exec (.prefixThenEd x) s = .next t →
    t.takesInt = false ∧ t.takesNmi = false)

/-- A handler that RETN or RETI leaves with SP and the two stacked bytes as the NMI acceptance made them returns
to the interrupted PC, with SP and the enable flag as they were before, on plain RAM (rule R611). -/
def Obligations.ReturnFromNmiRestores : Prop :=
  ∀ (s t u : State) (i : Instr), Memory.wf s.bus.ram = true → s.iff1 = s.iff2 → s.takesNmi = true →
    step s = .next t → (i = .reti ∨ ∃ y, i = .retn y) →
    s.bus.isForeign (s.sp - 1) = false → s.bus.isForeign (s.sp - 2) = false →
    u.sp = t.sp → u.iff2 = t.iff2 → u.bus.foreign = t.bus.foreign →
    u.bus.ramByte (s.sp - 1) = t.bus.ramByte (s.sp - 1) →
    u.bus.ramByte (s.sp - 2) = t.bus.ramByte (s.sp - 2) →
    ∃ v, exec i u = .next v ∧ v.pc = s.pc ∧ v.sp = s.sp ∧ v.iff1 = s.iff1

/-! ### The whole machine -/

/-- Every step keeps the invariant: RAM stays canonical, the decode state is Base, IFF1 implies IFF2, a halted
core inhibits nothing, and the EI shadow stands only after EI (10_state.md rules R49, R52, R56). -/
def Obligations.StepKeepsInvariant : Prop := ∀ s t : State, s.Inv → step s = .next t → t.Inv

/-- The state after reset meets the invariant. -/
def Obligations.ResetMeetsInvariant : Prop := State.reset.Inv

/-- Whatever the driver and the bus owner do between steps keeps the invariant, so a whole run does (rules R716,
R718). -/
def Obligations.RunKeepsInvariant : Prop :=
  (∀ (s : State) (regs : ResetRegs) (x : DriverAction), s.Inv → (x.apply regs s).Inv) ∧
  (∀ (k : Session) (xs : List (List DriverAction)), k.core.Inv → (k.run xs).core.Inv)

/-- I is written by LD I,A and by nothing else a step does (10_state.md rule R47). -/
def Obligations.OnlyLdIAWritesI : Prop :=
  ∀ s t : State, step s = .next t → t.i ≠ s.i →
    s.runsInstruction = true ∧ (fetch s).1 = .ldIA ∧ t.i = s.main.a

/-- A step advances R by its M1 cycles and keeps bit 7, but for LD R,A, which writes all of it (rules R48,
R162). -/
def Obligations.RefreshCountsM1Cycles : Prop :=
  ∀ s t : State, step s = .next t →
    (s.runsInstruction = false → AdvancesR 1 s t) ∧
    (s.runsInstruction = true → (fetch s).1 ≠ .ldRA → AdvancesR (fetch s).1.m1Cycles s t) ∧
    (s.runsInstruction = true → (fetch s).1 = .ldRA → t.r = s.main.a)

/-- IM is written by the IM instructions and by nothing else a step does (rule R50). -/
def Obligations.OnlyImWritesTheMode : Prop :=
  ∀ s t : State, step s = .next t → t.im ≠ s.im → s.runsInstruction = true ∧
    ((∃ y, (fetch s).1 = .im0 y) ∧ t.im = .im0 ∨ (∃ y, (fetch s).1 = .im1 y) ∧ t.im = .im1 ∨
      (∃ y, (fetch s).1 = .im2 y) ∧ t.im = .im2)

/-- The shadow set is changed by EX AF,AF' and EXX and by nothing else a step does (rule R44). -/
def Obligations.OnlyExchangesReachTheShadowSet : Prop :=
  ∀ s t : State, step s = .next t → t.alt ≠ s.alt → s.runsInstruction = true ∧
    ((fetch s).1 = .exAfAf ∨ (fetch s).1 = .exx ∨
      ∃ x, (fetch s).1 = .prefixIgnored x .exAfAf ∨ (fetch s).1 = .prefixIgnored x .exx)

/-- A step never writes the request line, the acknowledge byte, the parameter eiDelay or what the bus owner is, and
only the acceptance of an NMI clears the request latch (rules R53, R54). -/
def Obligations.StepNeverWritesTheInputs : Prop :=
  ∀ s t : State, step s = .next t →
    t.intLine = s.intLine ∧ t.intAckByte = s.intAckByte ∧ t.eiDelay = s.eiDelay ∧ SameOwner s t ∧
      t.nmiPending = (s.nmiPending && !s.takesNmi)

/-- The enable flags are written by DI, EI, RETN, RETI and acceptance only, and the halted state is set by HALT and
left by acceptance only (rules R49, R51). -/
def Obligations.ControlFlagsHaveFewWriters : Prop :=
  (∀ s t : State, step s = .next t → t.iff1 ≠ s.iff1 ∨ t.iff2 ≠ s.iff2 →
    s.takesNmi = true ∨ s.takesInt = true ∨ s.runsInstruction = true ∧
      ((fetch s).1 = .di ∨ (fetch s).1 = .ei ∨ (fetch s).1 = .reti ∨ (∃ y, (fetch s).1 = .retn y) ∨
        ∃ x, (fetch s).1 = .prefixIgnored x .di ∨ (fetch s).1 = .prefixIgnored x .ei)) ∧
  (∀ s t : State, step s = .next t → s.halted = false → t.halted = true →
    s.runsInstruction = true ∧ ((fetch s).1 = .halt ∨ ∃ x, (fetch s).1 = .haltIgnored x)) ∧
  (∀ s t : State, step s = .next t → s.halted = true → t.halted = false →
    s.takesNmi = true ∨ s.takesInt = true)

/-- No state depends on the T-state counter: with another count a step ends the same, but for the count, at the same
cost, which is 4 to 23 T-states (rules R55, R711). -/
def Obligations.StepIsIndependentOfTime : Prop :=
  (∀ (s t : State) (n : Nat), step s = .next t →
    s.tstates + 4 ≤ t.tstates ∧ t.tstates ≤ s.tstates + 23 ∧
      step { s with tstates := n } = .next { t with tstates := n + (t.tstates - s.tstates) }) ∧
  (∀ (s : State) (q : Refusal) (n : Nat), step s = .refused q → step { s with tstates := n } = .refused q)

/-- A step makes one to six bus calls, and no byte of RAM changes but by a write among them (20_memory.md rules R100,
R109, R113). -/
def Obligations.MemoryChangesOnlyByWriteCalls : Prop :=
  ∀ s t : State, Memory.wf s.bus.ram = true → step s = .next t → ∃ calls : List BusCall,
    t.bus.log = calls ++ s.bus.log ∧ 1 ≤ calls.length ∧ calls.length ≤ 6 ∧
      ∀ a, t.bus.ramByte a ≠ s.bus.ramByte a →
        s.bus.isForeign a = false ∧ BusCall.writeByte a (t.bus.ramByte a) ∈ calls

/-! ### Memory -/

/-- RAM of the canonical form that reads the same is the same data, so writes to different addresses may change places
and a write is undone by writing the old byte back. -/
def Obligations.EqualReadsAreEqualRam : Prop :=
  (∀ m m' : List Host.Cell, Memory.wf m = true → Memory.wf m' = true →
    (∀ a, a < 65536 → Memory.read m a = Memory.read m' a) → m = m') ∧
  ∀ (m : List Host.Cell) (a b : Nat) (v w : Byte), Memory.wf m = true → a < 65536 → b < 65536 → a ≠ b →
    Memory.write (Memory.write m a v) b w = Memory.write (Memory.write m b w) a v ∧
    Memory.write (Memory.write m a v) a (Memory.read m a) = m

/-- A word is read and stored little-endian, low byte first, at an address and the next, modulo 65536, by two byte calls;
on plain RAM a load after a store gives the word (20_memory.md rules R104, R105, R108). -/
def Obligations.WordStoreThenLoad : Prop :=
  (∀ (s : State) (a v : Word),
    s.memWord a = w16 ((s.afterRead a).memByte (a + 1)) (s.memByte a) ∧
    (s.afterReadWord a).bus.log = s.wordCalls a ++ s.bus.log ∧
    (s.memWriteWord a v).bus.log = [.writeByte (a + 1) (hi v), .writeByte a (lo v)] ++ s.bus.log) ∧
  ∀ (s : State) (a v : Word), Memory.wf s.bus.ram = true → s.bus.isForeign a = false →
    s.bus.isForeign (a + 1) = false →
    (s.memWriteWord a v).memWord a = v ∧
    (s.memWriteWord a v).bus.ramByte a = lo v ∧ (s.memWriteWord a v).bus.ramByte (a + 1) = hi v ∧
    RamKeepsBut [a, a + 1] s (s.memWriteWord a v)

/-- A push lowers SP by 2 and writes the high byte first, at the higher address; a pop reads the low byte first and raises SP
by 2; on plain RAM the pushed word lies little-endian at the new SP and the pop after a push returns the word
and SP (rule R106). -/
def Obligations.PopAfterPush : Prop :=
  (∀ (s : State) (v : Word),
    (s.push16 v).sp = s.sp - 2 ∧ (s.push16 v).bus.log = s.pushCalls v ++ s.bus.log ∧
    s.popWord = w16 ((s.afterRead s.sp).memByte (s.sp + 1)) (s.memByte s.sp) ∧
    s.afterPop.sp = s.sp + 2 ∧ s.afterPop.bus.log = s.wordCalls s.sp ++ s.bus.log) ∧
  ∀ (s : State) (v : Word), Memory.wf s.bus.ram = true → s.bus.isForeign (s.sp - 1) = false →
    s.bus.isForeign (s.sp - 2) = false →
    (s.push16 v).bus.ramWord (s.sp - 2) = v ∧
    (s.push16 v).popWord = v ∧ (s.push16 v).afterPop.sp = s.sp

/-! ### Loads -/

/-- LD r,r'; LD r,n; LD of the halves of IX and IY: the destination takes the byte, nothing else changes, the other
half of the index register included (40_load8.md rules R200, R201, R214, R215). -/
def Obligations.LoadRegisterForms : Prop :=
  ∀ s : State,
    (∀ r r', Runs (.ldRR r r') s { cost := 4, places := [Reg8.place r] } fun t => t.reg r = s.reg r') ∧
    (∀ r n, Runs (.ldRN r n) s { cost := 7, places := [Reg8.place r] } fun t => t.reg r = n) ∧
    (∀ x k r, Runs (.ldHalfR x k r) s { cost := 8, places := [Idx.place x] } fun t =>
      (Target.half x k).holds s t (s.halfReg x r)) ∧
    (∀ x r k, Runs (.ldRHalf x r k) s { cost := 8, places := [Reg8.place r] } fun t =>
      t.reg r = s.half x k) ∧
    (∀ x k n, Runs (.ldHalfN x k n) s { cost := 11, places := [Idx.place x] } fun t =>
      (Target.half x k).holds s t n)

/-- The 8-bit loads from memory: one read, and only the destination changes; LD H,(HL) reads at the old HL (rules R202,
R205 to R207, R211). -/
def Obligations.LoadFromMemoryForms : Prop :=
  ∀ s : State,
    (∀ r, Runs (.ldRMemHl r) s { cost := 7, places := [Reg8.place r], calls := [s.readCall s.hl] }
      fun t => t.reg r = s.memByte s.hl) ∧
    (∀ x r d, Runs (.ldRMemIdx x r d) s
      { cost := 19, places := [Reg8.place r], calls := [s.readCall (s.ea x d)] }
      fun t => t.reg r = s.memByte (s.ea x d)) ∧
    Runs .ldAMemBc s { cost := 7, places := [.a], calls := [s.readCall s.bc] }
      (fun t => t.main.a = s.memByte s.bc) ∧
    Runs .ldAMemDe s { cost := 7, places := [.a], calls := [s.readCall s.de] }
      (fun t => t.main.a = s.memByte s.de) ∧
    ∀ nn, Runs (.ldAMemNn nn) s { cost := 13, places := [.a], calls := [s.readCall nn] }
      fun t => t.main.a = s.memByte nn

/-- The 8-bit stores: one write, no register changes, and every other byte of RAM is as it was (rules R203, R204,
R208 to R210, R212, R213). -/
def Obligations.StoreForms : Prop :=
  ∀ s : State, Memory.wf s.bus.ram = true →
    (∀ r, Runs (.ldMemHlR r) s { cost := 7, stores := [s.hl], calls := [.writeByte s.hl (s.reg r)] }
      fun t => Holds s t s.hl (s.reg r)) ∧
    (∀ n, Runs (.ldMemHlN n) s { cost := 10, stores := [s.hl], calls := [.writeByte s.hl n] }
      fun t => Holds s t s.hl n) ∧
    (∀ x d r, Runs (.ldMemIdxR x d r) s
      { cost := 19, stores := [s.ea x d], calls := [.writeByte (s.ea x d) (s.reg r)] }
      fun t => Holds s t (s.ea x d) (s.reg r)) ∧
    (∀ x d n, Runs (.ldMemIdxN x d n) s
      { cost := 19, stores := [s.ea x d], calls := [.writeByte (s.ea x d) n] }
      fun t => Holds s t (s.ea x d) n) ∧
    Runs .ldMemBcA s { cost := 7, stores := [s.bc], calls := [.writeByte s.bc s.main.a] }
      (fun t => Holds s t s.bc s.main.a) ∧
    Runs .ldMemDeA s { cost := 7, stores := [s.de], calls := [.writeByte s.de s.main.a] }
      (fun t => Holds s t s.de s.main.a) ∧
    ∀ nn, Runs (.ldMemNnA nn) s { cost := 13, stores := [nn], calls := [.writeByte nn s.main.a] }
      fun t => Holds s t nn s.main.a

/-- LD A,I and LD A,R read IFF2 into PV and keep C; LD I,A and LD R,A write all eight bits and no flag (rules R216 to
R219). -/
def Obligations.InterruptAndRefreshLoads : Prop :=
  ∀ s : State,
    Runs .ldAI s { cost := 9, places := [.a, .f] } (fun t =>
      t.main.a = s.i ∧ t.flags = .result s.i false s.iff2 false s.flags.c) ∧
    Runs .ldAR s { cost := 9, places := [.a, .f] } (fun t =>
      t.main.a = s.r ∧ t.flags = .result s.r false s.iff2 false s.flags.c) ∧
    Runs .ldIA s { cost := 9, places := [.i] } (fun t => t.i = s.main.a) ∧
    Runs .ldRA s { cost := 9, places := [.r] } fun t => t.r = s.main.a

/-- The 16-bit loads between registers and INC and DEC of a pair: modulo 65536, and no flag changes (41_load16.md rules
R240, R241, R248, R249; 45_alu16.md rules R404 to R407). -/
def Obligations.PairForms : Prop :=
  ∀ s : State,
    (∀ dd nn, Runs (.ldDdNn dd nn) s { cost := 10, places := Pair.places dd } fun t => t.pair dd = nn) ∧
    (∀ x nn, Runs (.ldIdxNn x nn) s { cost := 14, places := [Idx.place x] } fun t => t.idx x = nn) ∧
    Runs .ldSpHl s { cost := 6, places := [.sp] } (fun t => t.sp = s.hl) ∧
    (∀ x, Runs (.ldSpIdx x) s { cost := 10, places := [.sp] } fun t => t.sp = s.idx x) ∧
    (∀ ss, Runs (.incSs ss) s { cost := 6, places := Pair.places ss } fun t =>
      (t.pair ss).toNat = ((s.pair ss).toNat + 1) % 65536) ∧
    (∀ ss, Runs (.decSs ss) s { cost := 6, places := Pair.places ss } fun t =>
      (t.pair ss).toNat = ((s.pair ss).toNat + 65535) % 65536) ∧
    (∀ x, Runs (.incIdx x) s { cost := 10, places := [Idx.place x] } fun t =>
      (t.idx x).toNat = ((s.idx x).toNat + 1) % 65536) ∧
    ∀ x, Runs (.decIdx x) s { cost := 10, places := [Idx.place x] } fun t =>
      (t.idx x).toNat = ((s.idx x).toNat + 65535) % 65536

/-- The 16-bit loads from and to an absolute address: two byte calls, low byte first, the second address modulo 65536
(rules R242 to R247). -/
def Obligations.AbsoluteWordForms : Prop :=
  ∀ (s : State) (nn : Word), Memory.wf s.bus.ram = true →
    Runs (.ldHlMemNn nn) s { cost := 16, places := [.h, .l], calls := s.wordCalls nn }
      (fun t => t.hl = s.wordAnswer nn) ∧
    (∀ dd, Runs (.ldDdMemNn dd nn) s { cost := 20, places := Pair.places dd, calls := s.wordCalls nn }
      fun t => t.pair dd = s.wordAnswer nn) ∧
    (∀ x, Runs (.ldIdxMemNn x nn) s { cost := 20, places := [Idx.place x], calls := s.wordCalls nn }
      fun t => t.idx x = s.wordAnswer nn) ∧
    Runs (.ldMemNnHl nn) s
      { cost := 16, stores := [nn, nn + 1]
        calls := [.writeByte (nn + 1) s.main.h, .writeByte nn s.main.l] }
      (fun t => Holds s t nn s.main.l ∧ Holds s t (nn + 1) s.main.h) ∧
    (∀ dd, Runs (.ldMemNnDd dd nn) s
      { cost := 20, stores := [nn, nn + 1]
        calls := [.writeByte (nn + 1) (hi (s.pair dd)), .writeByte nn (lo (s.pair dd))] }
      fun t => Holds s t nn (lo (s.pair dd)) ∧ Holds s t (nn + 1) (hi (s.pair dd))) ∧
    ∀ x, Runs (.ldMemNnIdx x nn) s
      { cost := 20, stores := [nn, nn + 1]
        calls := [.writeByte (nn + 1) (hi (s.idx x)), .writeByte nn (lo (s.idx x))] }
      fun t => Holds s t nn (lo (s.idx x)) ∧ Holds s t (nn + 1) (hi (s.idx x))

/-- PUSH and POP: SP moves by 2 modulo 65536, and only POP AF writes F (rules R250 to R253). -/
def Obligations.PushAndPopForms : Prop :=
  ∀ s : State, Memory.wf s.bus.ram = true →
    (∀ qq, Runs (.pushQq qq) s
      { cost := 11, places := [.sp], stores := s.pushStores, calls := s.pushCalls (s.stackPair qq) }
      fun t => Pushed s t (s.stackPair qq)) ∧
    (∀ x, Runs (.pushIdx x) s
      { cost := 15, places := [.sp], stores := s.pushStores, calls := s.pushCalls (s.idx x) }
      fun t => Pushed s t (s.idx x)) ∧
    (∀ qq, Runs (.popQq qq) s
      { cost := 10, places := .sp :: StackPair.places qq, calls := s.wordCalls s.sp }
      fun t => t.sp = s.sp + 2 ∧ t.stackPair qq = s.wordAnswer s.sp) ∧
    ∀ x, Runs (.popIdx x) s
      { cost := 14, places := [.sp, Idx.place x], calls := s.wordCalls s.sp }
      fun t => t.sp = s.sp + 2 ∧ t.idx x = s.wordAnswer s.sp

/-! ### Exchange and block instructions -/

/-- EX DE,HL, EX AF,AF' and EXX exchange what they name, and done twice restore every register (42_exchange_block.md
rules R270 to R272). -/
def Obligations.RegisterExchanges : Prop :=
  ∀ s : State,
    Runs .exDeHl s { cost := 4, places := [.d, .e, .h, .l] } (fun t => t.de = s.hl ∧ t.hl = s.de) ∧
    Runs .exAfAf s { cost := 4, places := [.a, .f, .a', .f'] } (fun t =>
      t.main.a = s.alt.a ∧ t.main.f = s.alt.f ∧ t.alt.a = s.main.a ∧ t.alt.f = s.main.f) ∧
    Runs .exx s
      { cost := 4, places := [.b, .c, .d, .e, .h, .l, .b', .c', .d', .e', .h', .l'] } (fun t =>
      t.main.b = s.alt.b ∧ t.main.c = s.alt.c ∧ t.main.d = s.alt.d ∧ t.main.e = s.alt.e ∧
      t.main.h = s.alt.h ∧ t.main.l = s.alt.l ∧ t.alt.b = s.main.b ∧ t.alt.c = s.main.c ∧
      t.alt.d = s.main.d ∧ t.alt.e = s.main.e ∧ t.alt.h = s.main.h ∧ t.alt.l = s.main.l) ∧
    ∀ i, i = .exDeHl ∨ i = .exAfAf ∨ i = .exx → ∀ t, exec i s = .next t →
      exec i t = .next { s with tstates := s.tstates + 8 }

/-- EX (SP),HL and EX (SP),IX exchange the register with the word at SP: two reads, low byte first, then two writes,
high byte first; SP stays (rules R273, R274). -/
def Obligations.StackTopExchanges : Prop :=
  ∀ s : State, Memory.wf s.bus.ram = true →
    Runs .exSpHl s
      { cost := 19, places := [.h, .l], stores := [s.sp, s.sp + 1]
        calls := [.writeByte s.sp s.main.l, .writeByte (s.sp + 1) s.main.h] ++ s.wordCalls s.sp }
      (fun t => t.hl = s.wordAnswer s.sp ∧ Holds s t s.sp s.main.l ∧ Holds s t (s.sp + 1) s.main.h) ∧
    ∀ x, Runs (.exSpIdx x) s
      { cost := 23, places := [Idx.place x], stores := [s.sp, s.sp + 1]
        calls := [.writeByte s.sp (lo (s.idx x)), .writeByte (s.sp + 1) (hi (s.idx x))] ++
          s.wordCalls s.sp }
      fun t => t.idx x = s.wordAnswer s.sp ∧ Holds s t s.sp (lo (s.idx x)) ∧
        Holds s t (s.sp + 1) (hi (s.idx x))

/-- LDI, LDIR, LDD and LDDR: one byte per step, the flags from A and the byte, and the repeat where BC is not 0 after
its decrement (rules R275 to R279). -/
def Obligations.BlockTransferForms : Prop :=
  ∀ (s : State) (down rep : Bool), Memory.wf s.bus.ram = true →
    let v := s.memByte s.hl
    let n := s.main.a + v
    let again := rep && s.bc - 1 != 0
    Runs (blockTransfer down rep) s
      { cost := blockCost again
        places := [.b, .c, .d, .e, .h, .l, .f] ++ if rep then [.pc] else []
        stores := [s.de]
        calls := [.writeByte s.de v, s.readCall s.hl] }
      fun t => Holds s t s.de v ∧ t.bc = s.bc - 1 ∧ t.de = moved down s.de ∧ t.hl = moved down s.hl ∧
        t.pc = blockPc again s ∧
        t.flags = { s.flags with
          h := false, n := false, pv := s.bc - 1 != 0, f3 := n.getLsbD 3, f5 := n.getLsbD 1 }

/-- CPI, CPIR, CPD and CPDR: A is compared with one byte per step, C stays, and the repeat is where BC is not 0 after its
decrement and no match is found (rules R275, R280 to R283). -/
def Obligations.BlockSearchForms : Prop :=
  ∀ (s : State) (down rep : Bool),
    let v := s.memByte s.hl
    let r := s.main.a - v
    let h : Bool := s.main.a.toNat % 16 < v.toNat % 16
    let n := if h then r - 1 else r
    let again := rep && s.bc - 1 != 0 && r != 0
    Runs (blockSearch down rep) s
      { cost := blockCost again
        places := [.b, .c, .h, .l, .f] ++ if rep then [.pc] else []
        calls := [s.readCall s.hl] }
      fun t => t.bc = s.bc - 1 ∧ t.hl = moved down s.hl ∧ t.pc = blockPc again s ∧
        t.flags =
          { s := r.getLsbD 7, z := r == 0, f5 := n.getLsbD 1, h := h, f3 := n.getLsbD 3
            pv := s.bc - 1 != 0, n := true, c := s.flags.c }

/-! ### 8-bit arithmetic -/

/-- ADD A and ADC A with every operand: the sum modulo 256, H the carry out of bit 3, PV signed overflow, C the carry out
of bit 7 (43_alu8.md rules R300, R301; 10_state.md rule R69). -/
def Obligations.AdditionForms : Prop :=
  ∀ (s : State) (o : Source) (withCarry : Bool),
    let a := s.main.a
    let v := o.value s
    let c := (withCarry && s.flags.c).toNat
    Runs (o.instr (if withCarry then 1 else 0)) s
      { cost := o.cost, places := [.a, .f], calls := o.calls s }
      fun t => t.main.a = BitVec.ofNat 8 (a.toNat + v.toNat + c) ∧
        t.flags = .result t.main.a (16 ≤ a.toNat % 16 + v.toNat % 16 + c)
          (overflows8 (a.toInt + v.toInt + c)) false (256 ≤ a.toNat + v.toNat + c)

/-- SUB, SBC A and CP with every operand: the difference modulo 256, H the borrow into bit 4, PV signed overflow, N, C the
borrow; CP leaves A and takes F5 and F3 from the operand (rules R302, R303, R307; rule R70). -/
def Obligations.SubtractionForms : Prop :=
  ∀ (s : State) (o : Source),
    let a := s.main.a
    let v := o.value s
    (∀ withBorrow : Bool,
      let c := (withBorrow && s.flags.c).toNat
      Runs (o.instr (if withBorrow then 3 else 2)) s
        { cost := o.cost, places := [.a, .f], calls := o.calls s }
        fun t => t.main.a = BitVec.ofInt 8 ((a.toNat : Int) - v.toNat - c) ∧
          t.flags = .result t.main.a (a.toNat % 16 < v.toNat % 16 + c)
            (overflows8 (a.toInt - v.toInt - c)) true (a.toNat < v.toNat + c)) ∧
    Runs (o.instr 7) s { cost := o.cost, places := [.f], calls := o.calls s }
      fun t => t.flags =
        { FlagBits.result (a - v) (a.toNat % 16 < v.toNat % 16) (overflows8 (a.toInt - v.toInt)) true
            (a.toNat < v.toNat) with f5 := v.getLsbD 5, f3 := v.getLsbD 3 }

/-- AND, XOR and OR with every operand: the flags of the result, PV its parity, H set by AND alone, N and C clear (rules
R304 to R306). -/
def Obligations.LogicForms : Prop :=
  ∀ (s : State) (o : Source),
    let a := s.main.a
    let v := o.value s
    let k : Footprint := { cost := o.cost, places := [.a, .f], calls := o.calls s }
    Runs (o.instr 4) s k (fun t =>
      t.main.a = a &&& v ∧ t.flags = .result (a &&& v) true (evenOnes (a &&& v)) false false) ∧
    Runs (o.instr 5) s k (fun t =>
      t.main.a = a ^^^ v ∧ t.flags = .result (a ^^^ v) false (evenOnes (a ^^^ v)) false false) ∧
    Runs (o.instr 6) s k fun t =>
      t.main.a = a ||| v ∧ t.flags = .result (a ||| v) false (evenOnes (a ||| v)) false false

/-- INC and DEC of every operand: C stays, H is the carry out of bit 3 or the borrow into bit 4, PV is set where 0x7F is
incremented or 0x80 decremented (rules R308, R309, R350 to R357). -/
def Obligations.IncrementAndDecrementForms : Prop :=
  ∀ (s : State) (o : Target) (i : Instr), Memory.wf s.bus.ram = true →
    let v := o.old s
    (o.inc = some i → Runs i s
      { cost := o.incDecCost, places := .f :: o.places, stores := o.stores s, calls := o.calls s (v + 1) }
      fun t => o.holds s t (v + 1) ∧
        t.flags = .result (v + 1) (v.toNat % 16 = 15) (v = 0x7F) false s.flags.c) ∧
    (o.dec = some i → Runs i s
      { cost := o.incDecCost, places := .f :: o.places, stores := o.stores s, calls := o.calls s (v - 1) }
      fun t => o.holds s t (v - 1) ∧
        t.flags = .result (v - 1) (v.toNat % 16 = 0) (v = 0x80) true s.flags.c)

/-- INC and then DEC of an operand gives the byte back and leaves C, in memory on plain RAM (rule R309, and the source's
round-trip property E1 of 95_test_vectors.md). -/
def Obligations.DecrementUndoesIncrement : Prop :=
  ∀ (s t : State) (o : Target) (i j : Instr), Memory.wf s.bus.ram = true → o.inc = some i → o.dec = some j →
    (∀ a, o.address s = some a → s.bus.isForeign a = false) → exec i s = .next t →
    ∃ u, exec j t = .next u ∧ o.old u = o.old s ∧ u.flags.c = s.flags.c

/-! ### General-purpose operations -/

/-- DAA for every A and every F: the correction is that of the row of the table, added, or subtracted after a
subtraction (44_general_cpu.md rule R370). -/
def Obligations.DecimalAdjustTable : Prop :=
  ∀ s : State,
    let a := s.main.a
    let low := a.toNat % 16
    let row := daaRow s.flags.c s.flags.h (a.toNat / 16) low
    Runs .daa s { cost := 4, places := [.a, .f] } fun t =>
      t.main.a = (if s.flags.n then a - row.1 else a + row.1) ∧
      t.flags = .result t.main.a (if s.flags.n then s.flags.h && low < 6 else 9 < low)
        (evenOnes t.main.a) s.flags.n row.2

/-- CPL, NEG, CCF and SCF (rules R371 to R374). -/
def Obligations.AccumulatorAndCarryForms : Prop :=
  ∀ s : State,
    let a := s.main.a
    Runs .cpl s { cost := 4, places := [.a, .f] } (fun t => t.main.a = ~~~a ∧
      t.flags = { s.flags with
        h := true, n := true, f5 := t.main.a.getLsbD 5, f3 := t.main.a.getLsbD 3 }) ∧
    (∀ y, Runs (.neg y) s { cost := 8, places := [.a, .f] } fun t =>
      t.main.a.toNat = (256 - a.toNat) % 256 ∧
      t.flags = .result t.main.a (a.toNat % 16 ≠ 0) (a = 0x80) true (a ≠ 0)) ∧
    Runs .ccf s { cost := 4, places := [.f] } (fun t => t.flags = { s.flags with
      c := !s.flags.c, h := s.flags.c, n := false, f5 := a.getLsbD 5, f3 := a.getLsbD 3 }) ∧
    Runs .scf s { cost := 4, places := [.f] } fun t => t.flags = { s.flags with
      c := true, h := false, n := false, f5 := a.getLsbD 5, f3 := a.getLsbD 3 }

/-- NOP, HALT, DI, EI, IM, the undefined ED opcodes, HALT with an ignored prefix and the standalone prefix: what each sets,
and nothing else (rules R375 to R378, R381 to R383, R386 to R388). -/
def Obligations.ControlForms : Prop :=
  ∀ s : State,
    Runs .nop s { cost := 4 } (fun _ => True) ∧
    (∀ op, Runs (.nopEd op) s { cost := 8 } fun _ => True) ∧
    Runs .halt s { cost := 4, places := [.halted] } (fun t => t.halted = true) ∧
    (∀ x, Runs (.haltIgnored x) s { cost := 8, places := [.halted] } fun t => t.halted = true) ∧
    Runs .di s { cost := 4, places := [.iff1, .iff2] } (fun t => t.iff1 = false ∧ t.iff2 = false) ∧
    Runs .ei s { cost := 4, places := [.iff1, .iff2, .shadow] } (fun t => t.iff1 = true ∧ t.iff2 = true ∧
      t.shadow = if s.eiDelay then .int else s.shadow) ∧
    (∀ y, Runs (.im0 y) s { cost := 8, places := [.im] } fun t => t.im = .im0) ∧
    (∀ y, Runs (.im1 y) s { cost := 8, places := [.im] } fun t => t.im = .im1) ∧
    (∀ y, Runs (.im2 y) s { cost := 8, places := [.im] } fun t => t.im = .im2) ∧
    (∀ x, Runs (.prefixThenIndex x) s { cost := 4, places := [.shadow] } fun t => t.shadow = .all) ∧
    ∀ x, Runs (.prefixThenEd x) s { cost := 4, places := [.shadow] } fun t => t.shadow = .all

/-- An instruction with an ignored prefix does what the instruction does, and costs 4 T-states more (rule R388;
30_encoding.md rule R159). -/
def Obligations.IgnoredPrefixCostsFour : Prop :=
  ∀ (s : State) (x : Idx) (base : Instr), base.ignoresPrefix = true →
    ∃ t, exec base s = .next t ∧
      exec (.prefixIgnored x base) s = .next { t with tstates := t.tstates + 4 }

/-! ### 16-bit arithmetic -/

/-- ADD HL,ss and ADD IX,pp: S, Z and PV stay, H and C are the carries out of bits 11 and 15, F5 and F3 are those of the
result's high byte (45_alu16.md rules R400, R403; 10_state.md rule R71). -/
def Obligations.Addition16Forms : Prop :=
  ∀ s : State,
    (∀ ss,
      let a := s.hl
      let v := s.pair ss
      Runs (.addHlSs ss) s { cost := 11, places := [.h, .l, .f] } fun t =>
        t.hl = BitVec.ofNat 16 (a.toNat + v.toNat) ∧
        t.flags = { s.flags with
          f5 := t.hl.getLsbD 13, f3 := t.hl.getLsbD 11, n := false
          h := 4096 ≤ a.toNat % 4096 + v.toNat % 4096, c := 65536 ≤ a.toNat + v.toNat }) ∧
    ∀ x pp,
      let a := s.idx x
      let v := s.idxPair x pp
      Runs (.addIdxPp x pp) s { cost := 15, places := [Idx.place x, .f] } fun t =>
        t.idx x = BitVec.ofNat 16 (a.toNat + v.toNat) ∧
        t.flags = { s.flags with
          f5 := (t.idx x).getLsbD 13, f3 := (t.idx x).getLsbD 11, n := false
          h := 4096 ≤ a.toNat % 4096 + v.toNat % 4096, c := 65536 ≤ a.toNat + v.toNat }

/-- ADC HL,ss and SBC HL,ss: Z is of all 16 bits, H is the carry out of bit 11 or the borrow into bit 12, PV is signed
16-bit overflow (rules R401, R402; rule R72). -/
def Obligations.CarryArithmetic16Forms : Prop :=
  ∀ (s : State) (ss : Pair),
    let a := s.hl
    let v := s.pair ss
    let c := s.flags.c.toNat
    Runs (.adcHlSs ss) s { cost := 15, places := [.h, .l, .f] } (fun t =>
      t.hl = BitVec.ofNat 16 (a.toNat + v.toNat + c) ∧
      t.flags =
        { s := t.hl.getLsbD 15, z := t.hl == 0, f5 := t.hl.getLsbD 13, f3 := t.hl.getLsbD 11
          h := 4096 ≤ a.toNat % 4096 + v.toNat % 4096 + c
          pv := overflows16 (a.toInt + v.toInt + c), n := false
          c := 65536 ≤ a.toNat + v.toNat + c }) ∧
    Runs (.sbcHlSs ss) s { cost := 15, places := [.h, .l, .f] } fun t =>
      t.hl = BitVec.ofInt 16 ((a.toNat : Int) - v.toNat - c) ∧
      t.flags =
        { s := t.hl.getLsbD 15, z := t.hl == 0, f5 := t.hl.getLsbD 13, f3 := t.hl.getLsbD 11
          h := a.toNat % 4096 < v.toNat % 4096 + c
          pv := overflows16 (a.toInt - v.toInt - c), n := true
          c := a.toNat < v.toNat + c }

/-! ### Rotates and shifts -/

/-- RLCA, RRCA, RLA and RRA: A is rotated, C is the bit moved out, H and N are clear, F5 and F3 are those of the new A, S, Z
and PV stay (46_rotate_shift.md rules R430 to R433). -/
def Obligations.AccumulatorRotates : Prop :=
  ∀ (s : State) (y : BitVec 2),
    let a := rotated (y.setWidth 3) s.flags.c s.main.a
    Runs (accRotate y) s { cost := 4, places := [.a, .f] } fun t => t.main.a = a ∧
      t.flags = { s.flags with
        h := false, n := false, c := rotatedOut (y.setWidth 3) s.main.a
        f5 := a.getLsbD 5, f3 := a.getLsbD 3 }

/-- The eight CB rotates and shifts of a register, of (HL), of (IX+d), and of (IX+d) with a copy: the operand takes the
result, and the flags are those of the result with C the bit moved out (rules R434 to R466). -/
def Obligations.RotateAndShiftForms : Prop :=
  ∀ (s : State) (y : BitVec 3) (o : Target) (i : Instr), Memory.wf s.bus.ram = true → o.rotate y = some i →
    let v := rotated y s.flags.c (o.old s)
    Runs i s
      { cost := o.cbCost, places := .f :: o.places, stores := o.stores s, calls := o.calls s v }
      fun t => o.holds s t v ∧
        t.flags = .result v false (evenOnes v) false (rotatedOut y (o.old s))

/-- RLD and RRD rotate three digits through the low digit of A and the byte at HL (rules R467, R468). -/
def Obligations.DigitRotates : Prop :=
  ∀ s : State, Memory.wf s.bus.ram = true →
    let a := s.main.a.toNat
    let v := (s.memByte s.hl).toNat
    let rld := BitVec.ofNat 8 (v % 16 * 16 + a % 16)
    let rrd := BitVec.ofNat 8 (a % 16 * 16 + v / 16)
    Runs .rld s
      { cost := 18, places := [.a, .f], stores := [s.hl], calls := [.writeByte s.hl rld, s.readCall s.hl] }
      (fun t => Holds s t s.hl rld ∧ t.main.a.toNat = a / 16 * 16 + v / 16 ∧
        t.flags = .result t.main.a false (evenOnes t.main.a) false s.flags.c) ∧
    Runs .rrd s
      { cost := 18, places := [.a, .f], stores := [s.hl], calls := [.writeByte s.hl rrd, s.readCall s.hl] }
      fun t => Holds s t s.hl rrd ∧ t.main.a.toNat = a / 16 * 16 + v % 16 ∧
        t.flags = .result t.main.a false (evenOnes t.main.a) false s.flags.c

/-! ### Bits -/

/-- BIT b of a register, of (HL) and of (IX+d): Z and PV say the bit is 0, S that bit 7 is tested and 1, F5 and F3 are the
operand's, or the high byte's of the address; nothing is written, whatever z is (47_bit.md rules R479 to
R482). -/
def Obligations.BitTestForms : Prop :=
  ∀ (s : State) (b : BitVec 3),
    let after (v xy : Byte) : FlagBits :=
      { s := b == 7 && v.getLsbD 7, z := !v.getLsbD b.toNat, f5 := xy.getLsbD 5, h := true
        f3 := xy.getLsbD 3, pv := !v.getLsbD b.toNat, n := false, c := s.flags.c }
    (∀ r, Runs (.bitR b r) s { cost := 8, places := [.f] } fun t =>
      t.flags = after (s.reg r) (s.reg r)) ∧
    Runs (.bitMemHl b) s { cost := 12, places := [.f], calls := [s.readCall s.hl] } (fun t =>
      t.flags = after (s.memByte s.hl) (s.memByte s.hl)) ∧
    ∀ x d z, Runs (.bitMemIdx x d b z) s { cost := 20, places := [.f], calls := [s.readCall (s.ea x d)] }
      fun t => t.flags = after (s.memByte (s.ea x d)) (hi (s.ea x d))

/-- RES b and SET b of a register, of (HL), of (IX+d), and of (IX+d) with a copy: bit b is 0, or 1, the other bits and
every flag stay (rules R483 to R490). -/
def Obligations.BitResetAndSetForms : Prop :=
  ∀ (s : State) (b : BitVec 3) (o : Target) (i : Instr) (on : Bool), Memory.wf s.bus.ram = true →
    (if on then o.set b else o.res b) = some i →
    ∃ v : Byte, (∀ k, k < 8 → v.getLsbD k = if k = b.toNat then on else (o.old s).getLsbD k) ∧
      Runs i s { cost := o.cbCost, places := o.places, stores := o.stores s, calls := o.calls s v }
        fun t => o.holds s t v

/-! ### Jumps, calls and returns -/

/-- The jumps: PC is the target where the condition holds, and otherwise the next instruction; a displacement is signed
and the target wraps; DJNZ decrements B and touches no flag (48_jump_call.md rules R510 to R517). -/
def Obligations.JumpForms : Prop :=
  ∀ (s : State) (nn : Word) (e : Byte),
    let target := BitVec.ofInt 16 (s.pc.toNat + e.toInt)
    Runs (.jpNn nn) s { cost := 10, places := [.pc] } (fun t => t.pc = nn) ∧
    (∀ cc, Runs (.jpCcNn cc nn) s { cost := 10, places := [.pc] } fun t =>
      t.pc = if Cond.met s.flags cc then nn else s.pc) ∧
    Runs (.jrE e) s { cost := 12, places := [.pc] } (fun t => t.pc = target) ∧
    (∀ cc, Runs (.jrCcE cc e) s
      { cost := if JrCond.met s.flags cc then 12 else 7, places := [.pc] } fun t =>
      t.pc = if JrCond.met s.flags cc then target else s.pc) ∧
    Runs (.djnzE e) s { cost := if s.main.b = 1 then 8 else 13, places := [.b, .pc] } (fun t =>
      t.main.b.toNat = (s.main.b.toNat + 255) % 256 ∧ t.pc = if s.main.b = 1 then s.pc else target) ∧
    Runs .jpHl s { cost := 4, places := [.pc] } (fun t => t.pc = s.hl) ∧
    ∀ x, Runs (.jpIdx x) s { cost := 8, places := [.pc] } fun t => t.pc = s.idx x

/-- CALL and RST push the address of the next instruction and go to their target; where the condition of CALL cc fails
nothing is pushed (rules R518, R519, R524). -/
def Obligations.CallForms : Prop :=
  ∀ s : State, Memory.wf s.bus.ram = true →
    let k (cost : Nat) : Footprint :=
      { cost := cost, places := [.sp, .pc], stores := s.pushStores, calls := s.pushCalls s.pc }
    (∀ nn, Runs (.callNn nn) s (k 17) fun t => Pushed s t s.pc ∧ t.pc = nn) ∧
    (∀ cc nn, Cond.met s.flags cc = true →
      Runs (.callCcNn cc nn) s (k 17) fun t => Pushed s t s.pc ∧ t.pc = nn) ∧
    (∀ cc nn, Cond.met s.flags cc = false → Runs (.callCcNn cc nn) s { cost := 10 } fun _ => True) ∧
    ∀ p, Runs (.rstP p) s (k 11) fun t => Pushed s t s.pc ∧ t.pc.toNat = 8 * p.toNat

/-- RET, RET cc, RETI and RETN pop PC, low byte first; RETI and RETN copy IFF2 to IFF1; where the condition of RET cc
fails no memory is read (rules R520 to R523). -/
def Obligations.ReturnForms : Prop :=
  ∀ s : State,
    let k (cost : Nat) (more : List Place) : Footprint :=
      { cost := cost, places := [.sp, .pc] ++ more, calls := s.wordCalls s.sp }
    let popped (t : State) : Prop := t.sp = s.sp + 2 ∧ t.pc = s.wordAnswer s.sp
    Runs .ret s (k 10 []) popped ∧
    (∀ cc, Cond.met s.flags cc = true → Runs (.retCc cc) s (k 11 []) popped) ∧
    (∀ cc, Cond.met s.flags cc = false → Runs (.retCc cc) s { cost := 5 } fun _ => True) ∧
    Runs .reti s (k 14 [.iff1]) (fun t => popped t ∧ t.iff1 = s.iff2) ∧
    ∀ y, Runs (.retn y) s (k 14 [.iff1]) fun t => popped t ∧ t.iff1 = s.iff2

/-! ### Input and output -/

/-- IN and OUT: one port call; the port is A and n, or B and C before B or C is overwritten; only IN r,(C) and IN F,(C)
write flags, and they keep C (49_io.md rules R550 to R555). -/
def Obligations.InputAndOutputForms : Prop :=
  ∀ s : State,
    let v := s.portByte s.bc
    (∀ n,
      let p := w16 s.main.a n
      Runs (.inAN n) s { cost := 11, places := [.a], calls := [.readPort p (s.portByte p)] } fun t =>
        t.main.a = s.portByte p) ∧
    (∀ r, Runs (.inRC r) s { cost := 12, places := [Reg8.place r, .f], calls := [.readPort s.bc v] }
      fun t => t.reg r = v ∧ t.flags = .result v false (evenOnes v) false s.flags.c) ∧
    Runs .inFC s { cost := 12, places := [.f], calls := [.readPort s.bc v] } (fun t =>
      t.flags = .result v false (evenOnes v) false s.flags.c) ∧
    (∀ n, Runs (.outNA n) s { cost := 11, calls := [.writePort (w16 s.main.a n) s.main.a] }
      fun _ => True) ∧
    (∀ r, Runs (.outCR r) s { cost := 12, calls := [.writePort s.bc (s.reg r)] } fun _ => True) ∧
    Runs .outCZero s { cost := 12, calls := [.writePort s.bc 0x00] } fun _ => True

/-- INI, INIR, IND and INDR: the port has B before its decrement; OUTI, OTIR, OUTD and OTDR: after it; the flags are those
of the new B, with N bit 7 of the byte, H and C the carry of the sum, PV the parity; the repeat is where B
is not 0 (rules R556 to R564; 42_exchange_block.md rule R275). -/
def Obligations.BlockInputAndOutputForms : Prop :=
  ∀ (s : State) (down rep : Bool), Memory.wf s.bus.ram = true →
    let b := s.main.b - 1
    let again := rep && b != 0
    let places : List Place := [.b, .h, .l, .f] ++ if rep then [.pc] else []
    let after (v : Byte) (k : Nat) : FlagBits :=
      .result b (255 < k) (evenOnes ((BitVec.ofNat 8 k &&& 7) ^^^ b)) (v.getLsbD 7) (255 < k)
    (let v := s.portByte s.bc
      let k := v.toNat + (s.main.c.toNat + if down then 255 else 1) % 256
      Runs (blockInput down rep) s
        { cost := blockCost again, places := places, stores := [s.hl]
          calls := [.writeByte s.hl v, .readPort s.bc v] }
        fun t => Holds s t s.hl v ∧ t.main.b = b ∧ t.hl = moved down s.hl ∧ t.pc = blockPc again s ∧
          t.flags = after v k) ∧
    (let v := s.memByte s.hl
      let k := v.toNat + (s.main.l.toNat + if down then 255 else 1) % 256
      Runs (blockOutput down rep) s
        { cost := blockCost again, places := places
          calls := [.writePort (w16 b s.main.c) v, s.readCall s.hl] }
        fun t => t.main.b = b ∧ t.hl = moved down s.hl ∧ t.pc = blockPc again s ∧ t.flags = after v k)

/-! ### The host -/

/-- Reset sets every item of core state to the value the spec gives, or to the parameter resetRegs, leaves the request
line, the acknowledge byte, memory and ports, makes no bus call and keeps the refused mark, and the next
step fetches at 0x0000 (70_reset_and_hazards.md rules R700, R701). That it keeps eiDelay, a parameter of
construction (00_scope.md rule R11), is the model's reading, log entry 6. -/
def Obligations.ResetOperation : Prop :=
  (∀ (s : State) (regs : ResetRegs),
    let t := s.hostReset regs
    t.main = regs.main ∧ t.alt = regs.alt ∧ t.ix = regs.ix ∧ t.iy = regs.iy ∧ t.sp = regs.sp ∧
      t.pc = 0x0000 ∧ t.i = 0x00 ∧ t.r = 0x00 ∧ t.iff1 = false ∧ t.iff2 = false ∧ t.im = .im0 ∧
      t.halted = false ∧ t.shadow = .none ∧ t.nmiPending = false ∧ t.tstates = 0 ∧ t.decode = .base ∧
      t.intLine = s.intLine ∧ t.intAckByte = s.intAckByte ∧ t.eiDelay = s.eiDelay ∧ t.bus = s.bus ∧
      t.runsInstruction = true) ∧
  ∀ k : Session, (k.act .reset).core = k.core.hostReset k.resetRegs ∧ (k.act .reset).refused = k.refused

/-- Construction from a state record whose IM is not 0, 1 or 2 fails with that value; where any of the nineteen registers
of a resetRegs, or any field of a state record that has a width, does not fit, it fails with the name of a
field that does not fit; a record that has neither fault is the state unchanged, and a resetRegs that
fits gives every item that reset sets its reset value (rules R702, R704). Two things are the model's
choice: which of several faults is reported, the mode first and then the first field in order (log entry
14), and that a core constructed from a resetRegs starts with the request line clear and the acknowledge
byte 0xFF, which the spec leaves to the host (log entry 7). -/
def Obligations.ConstructionErrors : Prop :=
  (∀ (bus : Bus) (delay : Bool) (k : StateRecord),
    (2 < k.im → constructFrom bus delay k = .error (.invalidInterruptMode k.im)) ∧
    (k.im ≤ 2 → NamesMisfit k.fields (constructFrom bus delay k)) ∧
    (k.im ≤ 2 → (∀ x ∈ k.fields, x.fits = true) →
      ∃ s, constructFrom bus delay k = .ok s ∧ s.record = k ∧ s.bus = bus ∧ s.eiDelay = delay ∧
        s.decode = .base)) ∧
  (∀ s : State, s.decode = .base → constructFrom s.bus s.eiDelay s.record = .ok s) ∧
  (∀ (bus : Bus) (delay : Bool) (k : ResetRecord), NamesMisfit k.fields (construct bus delay k)) ∧
  ∀ (bus : Bus) (delay : Bool) (regs : ResetRegs),
    construct bus delay ⟨regs.main.record, regs.alt.record, regs.ix.toNat, regs.iy.toNat, regs.sp.toNat⟩ =
      .ok (({ State.reset with bus := bus, eiDelay := delay } : State).hostReset regs)
end

