-- ==== Sys2Proof/Laws/Construct.lean ====
section
/-! SUPPORT. What the checks of construction answer (70_reset_and_hazards.md rule R704): the checked value, or the name of
the first field that does not fit. -/

namespace Sys2Proof.Machine

theorem checkWidth_eq (w v : Nat) (name : String) : checkWidth w name v =
    if (RecordField.mk name w v).fits then .ok (BitVec.ofNat w v)
    else .error (.invalidRegisterValue name) := by
  simp [checkWidth, RecordField.fits]

/-- Naming the first misfit is naming a misfit. -/
theorem NamesMisfit.of_first {fields : List RecordField} {answer : Except ConfigError State}
    (h : ∀ y, fields.find? (fun x => !x.fits) = some y → answer = .error (.invalidRegisterValue y.name)) :
    NamesMisfit fields answer := by
  refine ⟨fun x hx hf => ?_, h⟩
  obtain ⟨y, hy⟩ := Option.isSome_iff_exists.1
    ((List.find?_isSome (p := fun x : RecordField => !x.fits)).2 ⟨x, hx, by simp [hf]⟩)
  exact ⟨y, List.mem_of_find?_eq_some hy, by simpa using List.find?_some hy, h y hy⟩

theorem find_misfit_none {fields : List RecordField} (h : ∀ x ∈ fields, x.fits = true) :
    fields.find? (fun x => !x.fits) = none :=
  List.find?_eq_none.2 fun x hx => by simp [h x hx]

theorem BankRecord.check_eq (mark : String) (k : BankRecord) : k.check mark =
    match (k.fields mark).find? (fun x => !x.fits) with
    | some y => .error (.invalidRegisterValue y.name)
    | none => .ok ⟨.ofNat 8 k.a, .ofNat 8 k.f, .ofNat 8 k.b, .ofNat 8 k.c, .ofNat 8 k.d, .ofNat 8 k.e,
        .ofNat 8 k.h, .ofNat 8 k.l⟩ := by
  simp only [BankRecord.check, BankRecord.fields, checkWidth_eq, List.find?]
  cases (RecordField.mk ("A" ++ mark) 8 k.a).fits <;> try rfl
  cases (RecordField.mk ("F" ++ mark) 8 k.f).fits <;> try rfl
  cases (RecordField.mk ("B" ++ mark) 8 k.b).fits <;> try rfl
  cases (RecordField.mk ("C" ++ mark) 8 k.c).fits <;> try rfl
  cases (RecordField.mk ("D" ++ mark) 8 k.d).fits <;> try rfl
  cases (RecordField.mk ("E" ++ mark) 8 k.e).fits <;> try rfl
  cases (RecordField.mk ("H" ++ mark) 8 k.h).fits <;> try rfl
  cases (RecordField.mk ("L" ++ mark) 8 k.l).fits <;> rfl

/-- A `resetRegs` is refused for its first misfit; one that fits is the register values it lists. -/
theorem ResetRecord.check_eq (k : ResetRecord) : k.check =
    match k.fields.find? (fun x => !x.fits) with
    | some y => .error (.invalidRegisterValue y.name)
    | none => .ok ⟨⟨.ofNat 8 k.main.a, .ofNat 8 k.main.f, .ofNat 8 k.main.b, .ofNat 8 k.main.c,
        .ofNat 8 k.main.d, .ofNat 8 k.main.e, .ofNat 8 k.main.h, .ofNat 8 k.main.l⟩,
        ⟨.ofNat 8 k.alt.a, .ofNat 8 k.alt.f, .ofNat 8 k.alt.b, .ofNat 8 k.alt.c,
        .ofNat 8 k.alt.d, .ofNat 8 k.alt.e, .ofNat 8 k.alt.h, .ofNat 8 k.alt.l⟩,
        .ofNat 16 k.ix, .ofNat 16 k.iy, .ofNat 16 k.sp⟩ := by
  simp only [ResetRecord.check, ResetRecord.fields, BankRecord.check_eq, checkWidth_eq, List.find?_append]
  cases (k.main.fields "").find? _ <;> try rfl
  cases (k.alt.fields "'").find? _ <;> try rfl
  simp only [List.find?]
  cases (RecordField.mk "IX" 16 k.ix).fits <;> try rfl
  cases (RecordField.mk "IY" 16 k.iy).fits <;> try rfl
  cases (RecordField.mk "SP" 16 k.sp).fits <;> rfl

end Sys2Proof.Machine
end

