-- ==== Sys2Proof/Laws/Flags.lean ====
section
/-! SUPPORT. What every flag computation gives, bit by bit and in the exact arithmetic of the statements: one lemma per
function of Machine/Flags.lean, to be cited where a proof meets it. -/

namespace Sys2Proof.Machine

/-! ### Bits -/

theorem bitIf_getLsbD (b : Bool) (m : Byte) (k : Nat) : (bitIf b m).getLsbD k = (b && m.getLsbD k) := by
  cases b <;> simp [bitIf]

theorem sz53_getLsbD (v : Byte) (k : Nat) : (sz53 v).getLsbD k =
    ((v.getLsbD k && (0xA8 : Byte).getLsbD k) || ((v == 0) && (0x40 : Byte).getLsbD k)) := by
  simp [sz53, bitIf_getLsbD, BitVec.getLsbD_or, BitVec.getLsbD_and]

/-- Parity by counting is parity bit by bit. -/
theorem parity_eq (v : Byte) : parity v = evenOnes v := by
  revert v
  decide

/-- A bit of a word as a bit of a number. -/
theorem getLsbD_eq_decide {w : Nat} (a : BitVec w) (k : Nat) : a.getLsbD k = decide (a.toNat / 2 ^ k % 2 = 1) := by
  rw [BitVec.getLsbD, Nat.testBit_eq_decide_div_mod_eq]

theorem toInt_byte (a : Byte) : a.toInt = if a.toNat < 128 then (a.toNat : Int) else a.toNat - 256 := by
  rw [BitVec.toInt_eq_toNat_cond]
  split <;> split <;> omega

theorem toInt_word (a : Word) : a.toInt = if a.toNat < 32768 then (a.toNat : Int) else a.toNat - 65536 := by
  rw [BitVec.toInt_eq_toNat_cond]
  split <;> split <;> omega

theorem ofInt_sub_byte (a b : Byte) (c : Nat) (h : c ≤ 1) :
    (BitVec.ofInt 8 ((a.toNat : Int) - b.toNat - c)).toNat = (a.toNat + 512 - b.toNat - c) % 256 := by
  have := a.isLt
  have := b.isLt
  rw [BitVec.toNat_ofInt]
  omega

theorem ofInt_sub_word (a b : Word) (c : Nat) (h : c ≤ 1) :
    (BitVec.ofInt 16 ((a.toNat : Int) - b.toNat - c)).toNat = (a.toNat + 131072 - b.toNat - c) % 65536 := by
  have := a.isLt
  have := b.isLt
  rw [BitVec.toNat_ofInt]
  omega

/-! ### Half carry and overflow (10_state.md rules R67, R68) -/

/-- Three bits xored, as a parity of numbers. -/
theorem xor3_decide (p q r : Prop) [Decidable p] [Decidable q] [Decidable r] (t : Prop) [Decidable t]
    (h : (((if p then 1 else 0) + (if q then 1 else 0) + (if r then 1 else 0)) % 2 = 1) ↔ t) :
    (decide p ^^ decide q ^^ decide r) = decide t := by
  by_cases p <;> by_cases q <;> by_cases r <;> simp_all

theorem hc_add (a b : Byte) (c : Nat) (h : c ≤ 1) : hc a b (BitVec.ofNat 8 (a.toNat + b.toNat + c)) =
    decide (16 ≤ a.toNat % 16 + b.toNat % 16 + c) := by
  simp only [hc, BitVec.getLsbD_xor]
  simp only [getLsbD_eq_decide, BitVec.toNat_ofNat]
  refine xor3_decide _ _ _ _ ?_
  split_ifs <;> (try rw [false_iff]) <;> omega

theorem hc_sub (a b : Byte) (c : Nat) (h : c ≤ 1) :
    hc a b (BitVec.ofInt 8 ((a.toNat : Int) - b.toNat - c)) = decide (a.toNat % 16 < b.toNat % 16 + c) := by
  have := a.isLt
  have := b.isLt
  simp only [hc, BitVec.getLsbD_xor]
  simp only [getLsbD_eq_decide, ofInt_sub_byte a b c h]
  refine xor3_decide _ _ _ _ ?_
  split_ifs <;> (try rw [false_iff]) <;> omega

theorem hc16_add (a b : Word) (c : Nat) (h : c ≤ 1) : hc16 a b (BitVec.ofNat 16 (a.toNat + b.toNat + c)) =
    decide (4096 ≤ a.toNat % 4096 + b.toNat % 4096 + c) := by
  simp only [hc16, BitVec.getLsbD_xor]
  simp only [getLsbD_eq_decide, BitVec.toNat_ofNat]
  refine xor3_decide _ _ _ _ ?_
  split_ifs <;> (try rw [false_iff]) <;> omega

theorem hc16_sub (a b : Word) (c : Nat) (h : c ≤ 1) :
    hc16 a b (BitVec.ofInt 16 ((a.toNat : Int) - b.toNat - c)) =
      decide (a.toNat % 4096 < b.toNat % 4096 + c) := by
  have := a.isLt
  have := b.isLt
  simp only [hc16, BitVec.getLsbD_xor]
  simp only [getLsbD_eq_decide, ofInt_sub_word a b c h]
  refine xor3_decide _ _ _ _ ?_
  split_ifs <;> (try rw [false_iff]) <;> omega

theorem ovAdd_eq (a b : Byte) (c : Nat) (h : c ≤ 1) : ovAdd a b (BitVec.ofNat 8 (a.toNat + b.toNat + c)) =
    overflows8 (a.toInt + b.toInt + c) := by
  have := a.isLt
  have := b.isLt
  simp only [ovAdd, overflows8, BitVec.getLsbD_and, BitVec.getLsbD_xor]
  simp only [getLsbD_eq_decide, BitVec.toNat_ofNat, toInt_byte]
  rw [Bool.eq_iff_iff]
  simp only [Bool.and_eq_true, bne_iff_ne, ne_eq, decide_eq_decide, Bool.or_eq_true, decide_eq_true_eq]
  split_ifs <;> omega

theorem ovSub_eq (a b : Byte) (c : Nat) (h : c ≤ 1) :
    ovSub a b (BitVec.ofInt 8 ((a.toNat : Int) - b.toNat - c)) = overflows8 (a.toInt - b.toInt - c) := by
  have := a.isLt
  have := b.isLt
  simp only [ovSub, overflows8, BitVec.getLsbD_and, BitVec.getLsbD_xor]
  simp only [getLsbD_eq_decide, ofInt_sub_byte a b c h, toInt_byte]
  rw [Bool.eq_iff_iff]
  simp only [Bool.and_eq_true, bne_iff_ne, ne_eq, decide_eq_decide, Bool.or_eq_true, decide_eq_true_eq]
  split_ifs <;> omega

theorem ovAdd16_eq (a b : Word) (c : Nat) (h : c ≤ 1) :
    ovAdd16 a b (BitVec.ofNat 16 (a.toNat + b.toNat + c)) = overflows16 (a.toInt + b.toInt + c) := by
  have := a.isLt
  have := b.isLt
  simp only [ovAdd16, overflows16, BitVec.getLsbD_and, BitVec.getLsbD_xor]
  simp only [getLsbD_eq_decide, BitVec.toNat_ofNat, toInt_word]
  rw [Bool.eq_iff_iff]
  simp only [Bool.and_eq_true, bne_iff_ne, ne_eq, decide_eq_decide, Bool.or_eq_true, decide_eq_true_eq]
  split_ifs <;> omega

theorem ovSub16_eq (a b : Word) (c : Nat) (h : c ≤ 1) :
    ovSub16 a b (BitVec.ofInt 16 ((a.toNat : Int) - b.toNat - c)) = overflows16 (a.toInt - b.toInt - c) := by
  have := a.isLt
  have := b.isLt
  simp only [ovSub16, overflows16, BitVec.getLsbD_and, BitVec.getLsbD_xor]
  simp only [getLsbD_eq_decide, ofInt_sub_word a b c h, toInt_word]
  rw [Bool.eq_iff_iff]
  simp only [Bool.and_eq_true, bne_iff_ne, ne_eq, decide_eq_decide, Bool.or_eq_true, decide_eq_true_eq]
  split_ifs <;> omega

/-! ### The flag bytes -/

/-- The flags of `add8`. -/
theorem add8_flags (a b : Byte) (c : Bool) : FlagBits.of (add8 a b c).2 =
    .result (add8 a b c).1 (decide (16 ≤ a.toNat % 16 + b.toNat % 16 + c.toNat))
      (overflows8 (a.toInt + b.toInt + c.toNat)) false (decide (256 ≤ a.toNat + b.toNat + c.toNat)) := by
  have h : c.toNat ≤ 1 := by cases c <;> simp
  simp only [FlagBits.of, FlagBits.result, add8, BitVec.getLsbD_or, bitIf_getLsbD, sz53_getLsbD,
    hc_add _ _ _ h, ovAdd_eq _ _ _ h]
  simp
  omega

/-- The flags of `sub8`. -/
theorem sub8_flags (a b : Byte) (c : Bool) : FlagBits.of (sub8 a b c).2 =
    .result (sub8 a b c).1 (decide (a.toNat % 16 < b.toNat % 16 + c.toNat))
      (overflows8 (a.toInt - b.toInt - c.toNat)) true (decide (a.toNat < b.toNat + c.toNat)) := by
  have h : c.toNat ≤ 1 := by cases c <;> simp
  simp only [FlagBits.of, FlagBits.result, sub8, BitVec.getLsbD_or, bitIf_getLsbD, sz53_getLsbD,
    hc_sub _ _ _ h, ovSub_eq _ _ _ h]
  simp
  omega

/-- The flags of `sz53p`, alone. -/
theorem sz53p_flags (v : Byte) : FlagBits.of (sz53p v) = .result v false (evenOnes v) false false := by
  simp only [FlagBits.of, FlagBits.result, sz53p, parityF, parity_eq, BitVec.getLsbD_or, bitIf_getLsbD,
    sz53_getLsbD]
  simp

/-- The flags of `sz53p` with C kept. -/
theorem sz53pKeepC_flags (f v : Byte) :
    FlagBits.of (sz53pKeepC f v) = .result v false (evenOnes v) false (f.getLsbD 0) := by
  simp only [FlagBits.of, FlagBits.result, sz53pKeepC, sz53p, parityF, parity_eq, BitVec.getLsbD_or,
    BitVec.getLsbD_and, bitIf_getLsbD, sz53_getLsbD]
  simp

/-- The flags of `rot`. -/
theorem rot_flags (op : RotOp) (f v : Byte) : FlagBits.of (rot op f v).2 =
    .result (rot op f v).1 false (evenOnes (rot op f v).1) false (rotCarry op v) := by
  simp only [FlagBits.of, FlagBits.result, rot, sz53p, parityF, parity_eq, BitVec.getLsbD_or, bitIf_getLsbD,
    sz53_getLsbD]
  simp

/-- The flags after LD A,I and LD A,R. -/
theorem ldAIrFlags_flags (f v : Byte) (e : Bool) :
    FlagBits.of (ldAIrFlags f v e) = .result v false e false (f.getLsbD 0) := by
  simp only [FlagBits.of, FlagBits.result, ldAIrFlags, BitVec.getLsbD_or, BitVec.getLsbD_and, bitIf_getLsbD,
    sz53_getLsbD]
  simp

/-- The flags of `add16`: S, Z and PV of the old F. -/
theorem add16_flags (f : Byte) (a b : Word) : FlagBits.of (add16 f a b).2 =
    { FlagBits.of f with
      f5 := (hi (add16 f a b).1).getLsbD 5, f3 := (hi (add16 f a b).1).getLsbD 3, n := false
      h := decide (4096 ≤ a.toNat % 4096 + b.toNat % 4096), c := decide (65536 ≤ a.toNat + b.toNat) } := by
  have e := hc16_add a b 0 (Nat.zero_le 1)
  simp only [Nat.add_zero] at e
  simp only [FlagBits.of, add16, BitVec.getLsbD_or, BitVec.getLsbD_and, bitIf_getLsbD, e]
  simp
  omega

/-- The flags of `adc16`. -/
theorem adc16_flags (a b : Word) (c : Bool) : FlagBits.of (adc16 a b c).2 =
    { s := (adc16 a b c).1.getLsbD 15, z := (adc16 a b c).1 == 0
      f5 := (hi (adc16 a b c).1).getLsbD 5
      h := decide (4096 ≤ a.toNat % 4096 + b.toNat % 4096 + c.toNat)
      f3 := (hi (adc16 a b c).1).getLsbD 3
      pv := overflows16 (a.toInt + b.toInt + c.toNat), n := false
      c := decide (65536 ≤ a.toNat + b.toNat + c.toNat) } := by
  have h : c.toNat ≤ 1 := by cases c <;> simp
  simp only [FlagBits.of, adc16, BitVec.getLsbD_or, BitVec.getLsbD_and, bitIf_getLsbD, hc16_add _ _ _ h,
    ovAdd16_eq _ _ _ h]
  simp
  omega

/-- The flags of `sbc16`. -/
theorem sbc16_flags (a b : Word) (c : Bool) : FlagBits.of (sbc16 a b c).2 =
    { s := (sbc16 a b c).1.getLsbD 15, z := (sbc16 a b c).1 == 0
      f5 := (hi (sbc16 a b c).1).getLsbD 5
      h := decide (a.toNat % 4096 < b.toNat % 4096 + c.toNat)
      f3 := (hi (sbc16 a b c).1).getLsbD 3
      pv := overflows16 (a.toInt - b.toInt - c.toNat), n := true
      c := decide (a.toNat < b.toNat + c.toNat) } := by
  have h : c.toNat ≤ 1 := by cases c <;> simp
  simp only [FlagBits.of, sbc16, BitVec.getLsbD_or, BitVec.getLsbD_and, bitIf_getLsbD, hc16_sub _ _ _ h,
    ovSub16_eq _ _ _ h]
  simp
  omega

theorem low_digit_rolls_over (v : Byte) : (((v + 1) &&& 0x0F) == 0) = decide (v.toNat % 16 = 15) := by
  revert v
  decide

theorem low_digit_is_zero (v : Byte) : ((v &&& 0x0F) == 0) = decide (v.toNat % 16 = 0) := by
  revert v
  decide

/-- The flags of `inc8`. -/
theorem inc8_flags (f v : Byte) : FlagBits.of (inc8 f v).2 =
    .result (v + 1) (decide (v.toNat % 16 = 15)) (v == 0x7F) false (f.getLsbD 0) := by
  simp only [FlagBits.of, FlagBits.result, inc8, BitVec.getLsbD_or, BitVec.getLsbD_and, bitIf_getLsbD,
    sz53_getLsbD, low_digit_rolls_over]
  simp

/-- The flags of `dec8`. -/
theorem dec8_flags (f v : Byte) : FlagBits.of (dec8 f v).2 =
    .result (v - 1) (decide (v.toNat % 16 = 0)) (v == 0x80) true (f.getLsbD 0) := by
  simp only [FlagBits.of, FlagBits.result, dec8, BitVec.getLsbD_or, BitVec.getLsbD_and, bitIf_getLsbD,
    sz53_getLsbD, low_digit_is_zero]
  simp

/-- A tested bit: the mask leaves nothing exactly where the bit is 0. -/
theorem bitMask_tests : ∀ (b : BitVec 3) (v : Byte), ((v &&& bitMask b) == 0) = !v.getLsbD b.toNat := by
  decide

/-- The flags of `bitflags`. -/
theorem bitFlags_flags (f : Byte) (b : BitVec 3) (v xy : Byte) : FlagBits.of (bitFlags f b v xy) =
    { s := b == 7 && v.getLsbD b.toNat, z := !v.getLsbD b.toNat, f5 := xy.getLsbD 5, h := true
      f3 := xy.getLsbD 3, pv := !v.getLsbD b.toNat, n := false, c := f.getLsbD 0 } := by
  simp only [FlagBits.of, bitFlags, BitVec.getLsbD_or, BitVec.getLsbD_and, bitIf_getLsbD, bne, bitMask_tests]
  simp

/-- A condition on F is the condition on its flags. -/
theorem cond_eq_met (s : State) (cc : Cond) : s.cond cc = Cond.met s.flags cc := by
  cases cc <;> rfl

end Sys2Proof.Machine
end

