-- ==== Sys2Proof/Laws/Memory.lean ====
section
/-! SUPPORT. The laws of RAM: the canonical form and what a write does to a read. -/

namespace Sys2Proof.Machine

theorem Memory.wfFrom_cons {n k : Nat} {v : Byte} {m : List Host.Cell} :
    Memory.wfFrom n ((k, v) :: m) = true ↔
      n ≤ k ∧ k < 65536 ∧ v ≠ Memory.unwritten ∧ Memory.wfFrom (k + 1) m = true := by
  simp [Memory.wfFrom, and_assoc]

/-- A list that starts no lower than n' starts no lower than a smaller n. -/
theorem Memory.wfFrom_mono {n n' : Nat} (h : n ≤ n') : ∀ {m : List Host.Cell},
    Memory.wfFrom n' m = true → Memory.wfFrom n m = true
  | [], _ => rfl
  | (_, _) :: _, hm => by
    rw [Memory.wfFrom_cons] at hm ⊢
    exact ⟨h.trans hm.1, hm.2⟩

/-- Below its first address a list reads as unwritten. -/
theorem Memory.read_below : ∀ {m : List Host.Cell} {n a : Nat}, Memory.wfFrom n m = true → a < n →
    Memory.read m a = Memory.unwritten
  | [], _, _, _, _ => rfl
  | (k, v) :: m, n, a, hm, ha => by
    rw [Memory.wfFrom_cons] at hm
    rw [Memory.read, if_neg (by omega), Memory.read_below hm.2.2.2 (by omega)]

theorem Memory.wfFrom_put {n a : Nat} {v : Byte} {m : List Host.Cell} (hn : n ≤ a) (ha : a < 65536)
    (hm : Memory.wfFrom (a + 1) m = true) : Memory.wfFrom n (Memory.put a v m) = true := by
  rw [Memory.put]
  split
  · exact Memory.wfFrom_mono (by omega) hm
  · exact Memory.wfFrom_cons.2 ⟨hn, ha, ‹_›, hm⟩

theorem Memory.wfFrom_write : ∀ {m : List Host.Cell} {n a : Nat} {v : Byte}, n ≤ a → a < 65536 →
    Memory.wfFrom n m = true → Memory.wfFrom n (Memory.write m a v) = true
  | [], _, _, _, hn, ha, _ => Memory.wfFrom_put hn ha rfl
  | (k, w) :: m, n, a, v, hn, ha, hm => by
    rw [Memory.wfFrom_cons] at hm
    rw [Memory.write]
    split
    · exact Memory.wfFrom_put hn ha (Memory.wfFrom_cons.2 ⟨by omega, hm.2⟩)
    · split
      · subst a
        exact Memory.wfFrom_put hn ha hm.2.2.2
      · exact Memory.wfFrom_cons.2
          ⟨hm.1, hm.2.1, hm.2.2.1, Memory.wfFrom_write (by omega) ha hm.2.2.2⟩

/-- A write keeps the canonical form. -/
theorem Memory.wf_write {m : List Host.Cell} {a : Nat} {v : Byte} (hm : Memory.wf m = true)
    (ha : a < 65536) : Memory.wf (Memory.write m a v) = true :=
  Memory.wfFrom_write (Nat.zero_le a) ha hm

theorem Memory.read_put_same {a : Nat} {v : Byte} {m : List Host.Cell}
    (hm : Memory.wfFrom (a + 1) m = true) : Memory.read (Memory.put a v m) a = v := by
  rw [Memory.put]
  split
  · rw [Memory.read_below hm (by omega)]
    exact (‹v = _›).symm
  · rw [Memory.read, if_pos rfl]

theorem Memory.read_put_other {a b : Nat} {v : Byte} {m : List Host.Cell} (hb : b ≠ a) :
    Memory.read (Memory.put a v m) b = Memory.read m b := by
  rw [Memory.put]
  split
  · rfl
  · rw [Memory.read, if_neg (Ne.symm hb)]

/-- What a read after a write gives: the byte written at its address, the old byte anywhere else. -/
theorem Memory.read_write : ∀ {m : List Host.Cell} {n a : Nat} {v : Byte} (b : Nat),
    Memory.wfFrom n m = true →
      Memory.read (Memory.write m a v) b = if b = a then v else Memory.read m b
  | [], n, a, v, b, _ => by
    rw [Memory.write]
    split
    · subst b
      exact Memory.read_put_same rfl
    · exact Memory.read_put_other ‹_›
  | (k, w) :: m, n, a, v, b, hm => by
    rw [Memory.wfFrom_cons] at hm
    rw [Memory.write]
    split
    · split
      · subst b
        exact Memory.read_put_same (Memory.wfFrom_cons.2 ⟨by omega, hm.2⟩)
      · exact Memory.read_put_other ‹_›
    · split
      · subst a
        split
        · subst b
          exact Memory.read_put_same hm.2.2.2
        · rw [Memory.read_put_other ‹_›, Memory.read, if_neg (Ne.symm ‹_›)]
      · rw [Memory.read, Memory.read_write b hm.2.2.2, Memory.read]
        split
        · rw [if_neg (by omega)]
        · rfl

/-- The RAM of the bus owner after a `writeByte`. -/
theorem Bus.ramByte_writeByte {b : Bus} {a : Word} {v : Byte} (hm : Memory.wf b.ram = true) (c : Word) :
    (b.writeByte a v).ramByte c = if c = a ∧ b.isForeign a = false then v else b.ramByte c := by
  by_cases hf : b.isForeign a = true
  · simp [Bus.writeByte, Bus.ramByte, hf]
  · have hf' : b.isForeign a = false := by simpa using hf
    simp only [Bus.writeByte, Bus.ramByte, hf', Bool.false_eq_true, if_false, and_true]
    rw [Memory.read_write c.toNat hm]
    simp only [← BitVec.toNat_inj]

/-- `writeByte` keeps the canonical form. -/
theorem Bus.wf_writeByte {b : Bus} {a : Word} {v : Byte} (hm : Memory.wf b.ram = true) :
    Memory.wf (b.writeByte a v).ram = true := by
  simp only [Bus.writeByte]
  split
  · exact hm
  · exact Memory.wf_write hm a.isLt

/-- A byte stored by the bus owner keeps the canonical form. -/
theorem Bus.wf_poke {b : Bus} {a : Word} {v : Byte} (hm : Memory.wf b.ram = true) :
    Memory.wf (b.poke a v).ram = true := Memory.wf_write hm a.isLt

/-- Placed bytes keep the canonical form. -/
theorem Bus.wf_place : ∀ (bs : List Byte) (a : Word) (b : Bus), Memory.wf b.ram = true →
    Memory.wf (b.place bs a).ram = true
  | [], _, _, hm => hm
  | _ :: vs, a, b, hm => Bus.wf_place vs (a + 1) _ (Bus.wf_poke (b := b.claim a) hm)

/-- The RAM of the state after reset has the canonical form. -/
theorem Memory.wf_reset : Memory.wf State.reset.bus.ram = true := rfl

end Sys2Proof.Machine
end

