-- ==== Sys2Proof/Laws/State.lean ====
section
/-! SUPPORT. One lemma per field per update of the state, and the lemmas of the register set: after these no proof
unfolds an update. -/

namespace Sys2Proof.Machine

/-! ### The register set -/

@[simp] theorem RegBank.get_set (k : RegBank) (q q' : Reg8) (v : Byte) :
    (k.set q v).get q' = if q' = q then v else k.get q' := by
  cases q <;> cases q' <;> rfl

@[simp] theorem RegBank.set_f (k : RegBank) (q : Reg8) (v : Byte) : (k.set q v).f = k.f := by
  cases q <;> rfl

/-- A register set is its eight registers. -/
theorem RegBank.ext_get {k k' : RegBank} (h : ∀ q, k.get q = k'.get q) (hf : k.f = k'.f) : k = k' := by
  cases k
  cases k'
  simp only [RegBank.mk.injEq]
  exact ⟨h .a, hf, h .b, h .c, h .d, h .e, h .h, h .l⟩

/-! ### Bytes and words -/

theorem w16_toNat (h l : Byte) : (w16 h l).toNat = h.toNat * 256 + l.toNat := by
  rw [w16, BitVec.toNat_append, ← Nat.shiftLeft_add_eq_or_of_lt l.isLt, Nat.shiftLeft_eq]

theorem hi_toNat (w : Word) : (hi w).toNat = w.toNat / 256 := by
  have := w.isLt
  simp only [hi, BitVec.extractLsb'_toNat, Nat.shiftRight_eq_div_pow]
  omega

theorem lo_toNat (w : Word) : (lo w).toNat = w.toNat % 256 := by
  simp [lo, BitVec.extractLsb'_toNat]

@[simp] theorem hi_w16 (h l : Byte) : hi (w16 h l) = h := by
  have := l.isLt
  apply BitVec.eq_of_toNat_eq
  rw [hi_toNat, w16_toNat]
  omega

@[simp] theorem lo_w16 (h l : Byte) : lo (w16 h l) = l := by
  have := l.isLt
  apply BitVec.eq_of_toNat_eq
  rw [lo_toNat, w16_toNat]
  omega

@[simp] theorem w16_hi_lo (w : Word) : w16 (hi w) (lo w) = w := by
  apply BitVec.eq_of_toNat_eq
  rw [w16_toNat, hi_toNat, lo_toNat]
  omega

/-! ### Index registers -/

@[simp] theorem State.idx_setIdx (s : State) (x y : Idx) (v : Word) :
    (s.setIdx x v).idx y = if y = x then v else s.idx y := by
  cases x <;> cases y <;> rfl

theorem State.setHalf_eq (s : State) (x : Idx) (k : Half) (v : Byte) :
    s.setHalf x k v = s.setIdx x (match k with
      | .high => w16 v (lo (s.idx x))
      | .low => w16 (hi (s.idx x)) v) := by
  cases k <;> rfl

/-! ### Pairs -/

@[simp] theorem State.pair_setPair (s : State) (p : Pair) (v : Word) : (s.setPair p v).pair p = v := by
  cases p <;> simp [State.setPair, State.pair, State.setBc, State.setDe, State.setHl, State.setSp, State.bc,
    State.de, State.hl]

@[simp] theorem State.stackPair_setStackPair (s : State) (p : StackPair) (v : Word) :
    (s.setStackPair p v).stackPair p = v := by
  cases p <;> simp [State.setStackPair, State.stackPair, State.setBc, State.setDe, State.setHl, State.setAf,
    State.bc, State.de, State.hl, State.af]

/-! ### The bus -/

@[simp] theorem Bus.called_ram (b : Bus) (c : BusCall) : (b.called c).ram = b.ram := rfl
@[simp] theorem Bus.called_foreign (b : Bus) (c : BusCall) : (b.called c).foreign = b.foreign := rfl
@[simp] theorem Bus.called_ports (b : Bus) (c : BusCall) : (b.called c).ports = b.ports := rfl
@[simp] theorem Bus.called_log (b : Bus) (c : BusCall) : (b.called c).log = c :: b.log := rfl
@[simp] theorem Bus.called_ramByte (b : Bus) (c : BusCall) (a : Word) :
    (b.called c).ramByte a = b.ramByte a := rfl
@[simp] theorem Bus.called_isForeign (b : Bus) (c : BusCall) (a : Word) :
    (b.called c).isForeign a = b.isForeign a := rfl
@[simp] theorem Bus.writeByte_foreign (b : Bus) (a : Word) (v : Byte) :
    (b.writeByte a v).foreign = b.foreign := rfl
@[simp] theorem Bus.writeByte_ports (b : Bus) (a : Word) (v : Byte) :
    (b.writeByte a v).ports = b.ports := rfl
@[simp] theorem Bus.writeByte_log (b : Bus) (a : Word) (v : Byte) :
    (b.writeByte a v).log = .writeByte a v :: b.log := rfl
@[simp] theorem Bus.writeByte_isForeign (b : Bus) (a c : Word) (v : Byte) :
    (b.writeByte a v).isForeign c = b.isForeign c := rfl

/-- On plain RAM the answer is the byte of RAM. -/
theorem Bus.memAnswer_plain {b : Bus} {a : Word} (h : b.isForeign a = false) : b.memAnswer a = b.ramByte a := by
  simp [Bus.memAnswer, h]

@[simp] theorem State.afterReadWord_bus (s : State) (a : Word) :
    (s.afterReadWord a).bus = ((s.afterRead a).afterRead (a + 1)).bus := rfl
@[simp] theorem State.afterPop_bus (s : State) :
    s.afterPop.bus = ((s.afterRead s.sp).afterRead (s.sp + 1)).bus := rfl
@[simp] theorem State.returnFromInterrupt_bus (s : State) :
    s.returnFromInterrupt.bus = ((s.afterRead s.sp).afterRead (s.sp + 1)).bus := rfl

/-! ### One lemma per field per update -/

section setReg

variable (s : State) (q : Reg8) (v : Byte)

@[simp] theorem State.setReg_main : (s.setReg q v).main = s.main.set q v := rfl
@[simp] theorem State.setReg_alt : (s.setReg q v).alt = s.alt := rfl
@[simp] theorem State.setReg_ix : (s.setReg q v).ix = s.ix := rfl
@[simp] theorem State.setReg_iy : (s.setReg q v).iy = s.iy := rfl
@[simp] theorem State.setReg_sp : (s.setReg q v).sp = s.sp := rfl
@[simp] theorem State.setReg_pc : (s.setReg q v).pc = s.pc := rfl
@[simp] theorem State.setReg_i : (s.setReg q v).i = s.i := rfl
@[simp] theorem State.setReg_r : (s.setReg q v).r = s.r := rfl
@[simp] theorem State.setReg_iff1 : (s.setReg q v).iff1 = s.iff1 := rfl
@[simp] theorem State.setReg_iff2 : (s.setReg q v).iff2 = s.iff2 := rfl
@[simp] theorem State.setReg_im : (s.setReg q v).im = s.im := rfl
@[simp] theorem State.setReg_halted : (s.setReg q v).halted = s.halted := rfl
@[simp] theorem State.setReg_shadow : (s.setReg q v).shadow = s.shadow := rfl
@[simp] theorem State.setReg_nmiPending : (s.setReg q v).nmiPending = s.nmiPending := rfl
@[simp] theorem State.setReg_intLine : (s.setReg q v).intLine = s.intLine := rfl
@[simp] theorem State.setReg_intAckByte : (s.setReg q v).intAckByte = s.intAckByte := rfl
@[simp] theorem State.setReg_tstates : (s.setReg q v).tstates = s.tstates := rfl
@[simp] theorem State.setReg_decode : (s.setReg q v).decode = s.decode := rfl
@[simp] theorem State.setReg_eiDelay : (s.setReg q v).eiDelay = s.eiDelay := rfl
@[simp] theorem State.setReg_bus : (s.setReg q v).bus = s.bus := rfl

end setReg

section setIdx

variable (s : State) (x : Idx) (v : Word)

@[simp] theorem State.setIdx_main : (s.setIdx x v).main = s.main := rfl
@[simp] theorem State.setIdx_alt : (s.setIdx x v).alt = s.alt := rfl
@[simp] theorem State.setIdx_ix : (s.setIdx x v).ix = if x = .ix then v else s.ix := rfl
@[simp] theorem State.setIdx_iy : (s.setIdx x v).iy = if x = .iy then v else s.iy := rfl
@[simp] theorem State.setIdx_sp : (s.setIdx x v).sp = s.sp := rfl
@[simp] theorem State.setIdx_pc : (s.setIdx x v).pc = s.pc := rfl
@[simp] theorem State.setIdx_i : (s.setIdx x v).i = s.i := rfl
@[simp] theorem State.setIdx_r : (s.setIdx x v).r = s.r := rfl
@[simp] theorem State.setIdx_iff1 : (s.setIdx x v).iff1 = s.iff1 := rfl
@[simp] theorem State.setIdx_iff2 : (s.setIdx x v).iff2 = s.iff2 := rfl
@[simp] theorem State.setIdx_im : (s.setIdx x v).im = s.im := rfl
@[simp] theorem State.setIdx_halted : (s.setIdx x v).halted = s.halted := rfl
@[simp] theorem State.setIdx_shadow : (s.setIdx x v).shadow = s.shadow := rfl
@[simp] theorem State.setIdx_nmiPending : (s.setIdx x v).nmiPending = s.nmiPending := rfl
@[simp] theorem State.setIdx_intLine : (s.setIdx x v).intLine = s.intLine := rfl
@[simp] theorem State.setIdx_intAckByte : (s.setIdx x v).intAckByte = s.intAckByte := rfl
@[simp] theorem State.setIdx_tstates : (s.setIdx x v).tstates = s.tstates := rfl
@[simp] theorem State.setIdx_decode : (s.setIdx x v).decode = s.decode := rfl
@[simp] theorem State.setIdx_eiDelay : (s.setIdx x v).eiDelay = s.eiDelay := rfl
@[simp] theorem State.setIdx_bus : (s.setIdx x v).bus = s.bus := rfl

end setIdx

section setHalf

variable (s : State) (x : Idx) (k : Half) (v : Byte)

@[simp] theorem State.setHalf_main : (s.setHalf x k v).main = s.main := by cases k <;> rfl
@[simp] theorem State.setHalf_alt : (s.setHalf x k v).alt = s.alt := by cases k <;> rfl
@[simp] theorem State.setHalf_sp : (s.setHalf x k v).sp = s.sp := by cases k <;> rfl
@[simp] theorem State.setHalf_pc : (s.setHalf x k v).pc = s.pc := by cases k <;> rfl
@[simp] theorem State.setHalf_i : (s.setHalf x k v).i = s.i := by cases k <;> rfl
@[simp] theorem State.setHalf_r : (s.setHalf x k v).r = s.r := by cases k <;> rfl
@[simp] theorem State.setHalf_iff1 : (s.setHalf x k v).iff1 = s.iff1 := by cases k <;> rfl
@[simp] theorem State.setHalf_iff2 : (s.setHalf x k v).iff2 = s.iff2 := by cases k <;> rfl
@[simp] theorem State.setHalf_im : (s.setHalf x k v).im = s.im := by cases k <;> rfl
@[simp] theorem State.setHalf_halted : (s.setHalf x k v).halted = s.halted := by cases k <;> rfl
@[simp] theorem State.setHalf_shadow : (s.setHalf x k v).shadow = s.shadow := by cases k <;> rfl
@[simp] theorem State.setHalf_nmiPending : (s.setHalf x k v).nmiPending = s.nmiPending := by cases k <;> rfl
@[simp] theorem State.setHalf_intLine : (s.setHalf x k v).intLine = s.intLine := by cases k <;> rfl
@[simp] theorem State.setHalf_intAckByte : (s.setHalf x k v).intAckByte = s.intAckByte := by cases k <;> rfl
@[simp] theorem State.setHalf_tstates : (s.setHalf x k v).tstates = s.tstates := by cases k <;> rfl
@[simp] theorem State.setHalf_decode : (s.setHalf x k v).decode = s.decode := by cases k <;> rfl
@[simp] theorem State.setHalf_eiDelay : (s.setHalf x k v).eiDelay = s.eiDelay := by cases k <;> rfl
@[simp] theorem State.setHalf_bus : (s.setHalf x k v).bus = s.bus := by cases k <;> rfl

end setHalf

section setBc

variable (s : State) (v : Word)

@[simp] theorem State.setBc_main : (s.setBc v).main = { s.main with b := hi v, c := lo v } := rfl
@[simp] theorem State.setBc_alt : (s.setBc v).alt = s.alt := rfl
@[simp] theorem State.setBc_ix : (s.setBc v).ix = s.ix := rfl
@[simp] theorem State.setBc_iy : (s.setBc v).iy = s.iy := rfl
@[simp] theorem State.setBc_sp : (s.setBc v).sp = s.sp := rfl
@[simp] theorem State.setBc_pc : (s.setBc v).pc = s.pc := rfl
@[simp] theorem State.setBc_i : (s.setBc v).i = s.i := rfl
@[simp] theorem State.setBc_r : (s.setBc v).r = s.r := rfl
@[simp] theorem State.setBc_iff1 : (s.setBc v).iff1 = s.iff1 := rfl
@[simp] theorem State.setBc_iff2 : (s.setBc v).iff2 = s.iff2 := rfl
@[simp] theorem State.setBc_im : (s.setBc v).im = s.im := rfl
@[simp] theorem State.setBc_halted : (s.setBc v).halted = s.halted := rfl
@[simp] theorem State.setBc_shadow : (s.setBc v).shadow = s.shadow := rfl
@[simp] theorem State.setBc_nmiPending : (s.setBc v).nmiPending = s.nmiPending := rfl
@[simp] theorem State.setBc_intLine : (s.setBc v).intLine = s.intLine := rfl
@[simp] theorem State.setBc_intAckByte : (s.setBc v).intAckByte = s.intAckByte := rfl
@[simp] theorem State.setBc_tstates : (s.setBc v).tstates = s.tstates := rfl
@[simp] theorem State.setBc_decode : (s.setBc v).decode = s.decode := rfl
@[simp] theorem State.setBc_eiDelay : (s.setBc v).eiDelay = s.eiDelay := rfl
@[simp] theorem State.setBc_bus : (s.setBc v).bus = s.bus := rfl

end setBc

section setDe

variable (s : State) (v : Word)

@[simp] theorem State.setDe_main : (s.setDe v).main = { s.main with d := hi v, e := lo v } := rfl
@[simp] theorem State.setDe_alt : (s.setDe v).alt = s.alt := rfl
@[simp] theorem State.setDe_ix : (s.setDe v).ix = s.ix := rfl
@[simp] theorem State.setDe_iy : (s.setDe v).iy = s.iy := rfl
@[simp] theorem State.setDe_sp : (s.setDe v).sp = s.sp := rfl
@[simp] theorem State.setDe_pc : (s.setDe v).pc = s.pc := rfl
@[simp] theorem State.setDe_i : (s.setDe v).i = s.i := rfl
@[simp] theorem State.setDe_r : (s.setDe v).r = s.r := rfl
@[simp] theorem State.setDe_iff1 : (s.setDe v).iff1 = s.iff1 := rfl
@[simp] theorem State.setDe_iff2 : (s.setDe v).iff2 = s.iff2 := rfl
@[simp] theorem State.setDe_im : (s.setDe v).im = s.im := rfl
@[simp] theorem State.setDe_halted : (s.setDe v).halted = s.halted := rfl
@[simp] theorem State.setDe_shadow : (s.setDe v).shadow = s.shadow := rfl
@[simp] theorem State.setDe_nmiPending : (s.setDe v).nmiPending = s.nmiPending := rfl
@[simp] theorem State.setDe_intLine : (s.setDe v).intLine = s.intLine := rfl
@[simp] theorem State.setDe_intAckByte : (s.setDe v).intAckByte = s.intAckByte := rfl
@[simp] theorem State.setDe_tstates : (s.setDe v).tstates = s.tstates := rfl
@[simp] theorem State.setDe_decode : (s.setDe v).decode = s.decode := rfl
@[simp] theorem State.setDe_eiDelay : (s.setDe v).eiDelay = s.eiDelay := rfl
@[simp] theorem State.setDe_bus : (s.setDe v).bus = s.bus := rfl

end setDe

section setHl

variable (s : State) (v : Word)

@[simp] theorem State.setHl_main : (s.setHl v).main = { s.main with h := hi v, l := lo v } := rfl
@[simp] theorem State.setHl_alt : (s.setHl v).alt = s.alt := rfl
@[simp] theorem State.setHl_ix : (s.setHl v).ix = s.ix := rfl
@[simp] theorem State.setHl_iy : (s.setHl v).iy = s.iy := rfl
@[simp] theorem State.setHl_sp : (s.setHl v).sp = s.sp := rfl
@[simp] theorem State.setHl_pc : (s.setHl v).pc = s.pc := rfl
@[simp] theorem State.setHl_i : (s.setHl v).i = s.i := rfl
@[simp] theorem State.setHl_r : (s.setHl v).r = s.r := rfl
@[simp] theorem State.setHl_iff1 : (s.setHl v).iff1 = s.iff1 := rfl
@[simp] theorem State.setHl_iff2 : (s.setHl v).iff2 = s.iff2 := rfl
@[simp] theorem State.setHl_im : (s.setHl v).im = s.im := rfl
@[simp] theorem State.setHl_halted : (s.setHl v).halted = s.halted := rfl
@[simp] theorem State.setHl_shadow : (s.setHl v).shadow = s.shadow := rfl
@[simp] theorem State.setHl_nmiPending : (s.setHl v).nmiPending = s.nmiPending := rfl
@[simp] theorem State.setHl_intLine : (s.setHl v).intLine = s.intLine := rfl
@[simp] theorem State.setHl_intAckByte : (s.setHl v).intAckByte = s.intAckByte := rfl
@[simp] theorem State.setHl_tstates : (s.setHl v).tstates = s.tstates := rfl
@[simp] theorem State.setHl_decode : (s.setHl v).decode = s.decode := rfl
@[simp] theorem State.setHl_eiDelay : (s.setHl v).eiDelay = s.eiDelay := rfl
@[simp] theorem State.setHl_bus : (s.setHl v).bus = s.bus := rfl

end setHl

section setAf

variable (s : State) (v : Word)

@[simp] theorem State.setAf_main : (s.setAf v).main = { s.main with a := hi v, f := lo v } := rfl
@[simp] theorem State.setAf_alt : (s.setAf v).alt = s.alt := rfl
@[simp] theorem State.setAf_ix : (s.setAf v).ix = s.ix := rfl
@[simp] theorem State.setAf_iy : (s.setAf v).iy = s.iy := rfl
@[simp] theorem State.setAf_sp : (s.setAf v).sp = s.sp := rfl
@[simp] theorem State.setAf_pc : (s.setAf v).pc = s.pc := rfl
@[simp] theorem State.setAf_i : (s.setAf v).i = s.i := rfl
@[simp] theorem State.setAf_r : (s.setAf v).r = s.r := rfl
@[simp] theorem State.setAf_iff1 : (s.setAf v).iff1 = s.iff1 := rfl
@[simp] theorem State.setAf_iff2 : (s.setAf v).iff2 = s.iff2 := rfl
@[simp] theorem State.setAf_im : (s.setAf v).im = s.im := rfl
@[simp] theorem State.setAf_halted : (s.setAf v).halted = s.halted := rfl
@[simp] theorem State.setAf_shadow : (s.setAf v).shadow = s.shadow := rfl
@[simp] theorem State.setAf_nmiPending : (s.setAf v).nmiPending = s.nmiPending := rfl
@[simp] theorem State.setAf_intLine : (s.setAf v).intLine = s.intLine := rfl
@[simp] theorem State.setAf_intAckByte : (s.setAf v).intAckByte = s.intAckByte := rfl
@[simp] theorem State.setAf_tstates : (s.setAf v).tstates = s.tstates := rfl
@[simp] theorem State.setAf_decode : (s.setAf v).decode = s.decode := rfl
@[simp] theorem State.setAf_eiDelay : (s.setAf v).eiDelay = s.eiDelay := rfl
@[simp] theorem State.setAf_bus : (s.setAf v).bus = s.bus := rfl

end setAf

section setSp

variable (s : State) (v : Word)

@[simp] theorem State.setSp_main : (s.setSp v).main = s.main := rfl
@[simp] theorem State.setSp_alt : (s.setSp v).alt = s.alt := rfl
@[simp] theorem State.setSp_ix : (s.setSp v).ix = s.ix := rfl
@[simp] theorem State.setSp_iy : (s.setSp v).iy = s.iy := rfl
@[simp] theorem State.setSp_sp : (s.setSp v).sp = v := rfl
@[simp] theorem State.setSp_pc : (s.setSp v).pc = s.pc := rfl
@[simp] theorem State.setSp_i : (s.setSp v).i = s.i := rfl
@[simp] theorem State.setSp_r : (s.setSp v).r = s.r := rfl
@[simp] theorem State.setSp_iff1 : (s.setSp v).iff1 = s.iff1 := rfl
@[simp] theorem State.setSp_iff2 : (s.setSp v).iff2 = s.iff2 := rfl
@[simp] theorem State.setSp_im : (s.setSp v).im = s.im := rfl
@[simp] theorem State.setSp_halted : (s.setSp v).halted = s.halted := rfl
@[simp] theorem State.setSp_shadow : (s.setSp v).shadow = s.shadow := rfl
@[simp] theorem State.setSp_nmiPending : (s.setSp v).nmiPending = s.nmiPending := rfl
@[simp] theorem State.setSp_intLine : (s.setSp v).intLine = s.intLine := rfl
@[simp] theorem State.setSp_intAckByte : (s.setSp v).intAckByte = s.intAckByte := rfl
@[simp] theorem State.setSp_tstates : (s.setSp v).tstates = s.tstates := rfl
@[simp] theorem State.setSp_decode : (s.setSp v).decode = s.decode := rfl
@[simp] theorem State.setSp_eiDelay : (s.setSp v).eiDelay = s.eiDelay := rfl
@[simp] theorem State.setSp_bus : (s.setSp v).bus = s.bus := rfl

end setSp

section setPair

variable (s : State) (p : Pair) (v : Word)

@[simp] theorem State.setPair_alt : (s.setPair p v).alt = s.alt := by cases p <;> rfl
@[simp] theorem State.setPair_ix : (s.setPair p v).ix = s.ix := by cases p <;> rfl
@[simp] theorem State.setPair_iy : (s.setPair p v).iy = s.iy := by cases p <;> rfl
@[simp] theorem State.setPair_pc : (s.setPair p v).pc = s.pc := by cases p <;> rfl
@[simp] theorem State.setPair_i : (s.setPair p v).i = s.i := by cases p <;> rfl
@[simp] theorem State.setPair_r : (s.setPair p v).r = s.r := by cases p <;> rfl
@[simp] theorem State.setPair_iff1 : (s.setPair p v).iff1 = s.iff1 := by cases p <;> rfl
@[simp] theorem State.setPair_iff2 : (s.setPair p v).iff2 = s.iff2 := by cases p <;> rfl
@[simp] theorem State.setPair_im : (s.setPair p v).im = s.im := by cases p <;> rfl
@[simp] theorem State.setPair_halted : (s.setPair p v).halted = s.halted := by cases p <;> rfl
@[simp] theorem State.setPair_shadow : (s.setPair p v).shadow = s.shadow := by cases p <;> rfl
@[simp] theorem State.setPair_nmiPending : (s.setPair p v).nmiPending = s.nmiPending := by cases p <;> rfl
@[simp] theorem State.setPair_intLine : (s.setPair p v).intLine = s.intLine := by cases p <;> rfl
@[simp] theorem State.setPair_intAckByte : (s.setPair p v).intAckByte = s.intAckByte := by cases p <;> rfl
@[simp] theorem State.setPair_tstates : (s.setPair p v).tstates = s.tstates := by cases p <;> rfl
@[simp] theorem State.setPair_decode : (s.setPair p v).decode = s.decode := by cases p <;> rfl
@[simp] theorem State.setPair_eiDelay : (s.setPair p v).eiDelay = s.eiDelay := by cases p <;> rfl
@[simp] theorem State.setPair_bus : (s.setPair p v).bus = s.bus := by cases p <;> rfl

end setPair

section setStackPair

variable (s : State) (p : StackPair) (v : Word)

@[simp] theorem State.setStackPair_alt : (s.setStackPair p v).alt = s.alt := by cases p <;> rfl
@[simp] theorem State.setStackPair_ix : (s.setStackPair p v).ix = s.ix := by cases p <;> rfl
@[simp] theorem State.setStackPair_iy : (s.setStackPair p v).iy = s.iy := by cases p <;> rfl
@[simp] theorem State.setStackPair_sp : (s.setStackPair p v).sp = s.sp := by cases p <;> rfl
@[simp] theorem State.setStackPair_pc : (s.setStackPair p v).pc = s.pc := by cases p <;> rfl
@[simp] theorem State.setStackPair_i : (s.setStackPair p v).i = s.i := by cases p <;> rfl
@[simp] theorem State.setStackPair_r : (s.setStackPair p v).r = s.r := by cases p <;> rfl
@[simp] theorem State.setStackPair_iff1 : (s.setStackPair p v).iff1 = s.iff1 := by cases p <;> rfl
@[simp] theorem State.setStackPair_iff2 : (s.setStackPair p v).iff2 = s.iff2 := by cases p <;> rfl
@[simp] theorem State.setStackPair_im : (s.setStackPair p v).im = s.im := by cases p <;> rfl
@[simp] theorem State.setStackPair_halted : (s.setStackPair p v).halted = s.halted := by cases p <;> rfl
@[simp] theorem State.setStackPair_shadow : (s.setStackPair p v).shadow = s.shadow := by cases p <;> rfl
@[simp] theorem State.setStackPair_nmiPending : (s.setStackPair p v).nmiPending =
    s.nmiPending := by cases p <;> rfl
@[simp] theorem State.setStackPair_intLine : (s.setStackPair p v).intLine = s.intLine := by cases p <;> rfl
@[simp] theorem State.setStackPair_intAckByte : (s.setStackPair p v).intAckByte =
    s.intAckByte := by cases p <;> rfl
@[simp] theorem State.setStackPair_tstates : (s.setStackPair p v).tstates = s.tstates := by cases p <;> rfl
@[simp] theorem State.setStackPair_decode : (s.setStackPair p v).decode = s.decode := by cases p <;> rfl
@[simp] theorem State.setStackPair_eiDelay : (s.setStackPair p v).eiDelay = s.eiDelay := by cases p <;> rfl
@[simp] theorem State.setStackPair_bus : (s.setStackPair p v).bus = s.bus := by cases p <;> rfl

end setStackPair

section setA

variable (s : State) (v : Byte)

@[simp] theorem State.setA_main : (s.setA v).main = { s.main with a := v } := rfl
@[simp] theorem State.setA_alt : (s.setA v).alt = s.alt := rfl
@[simp] theorem State.setA_ix : (s.setA v).ix = s.ix := rfl
@[simp] theorem State.setA_iy : (s.setA v).iy = s.iy := rfl
@[simp] theorem State.setA_sp : (s.setA v).sp = s.sp := rfl
@[simp] theorem State.setA_pc : (s.setA v).pc = s.pc := rfl
@[simp] theorem State.setA_i : (s.setA v).i = s.i := rfl
@[simp] theorem State.setA_r : (s.setA v).r = s.r := rfl
@[simp] theorem State.setA_iff1 : (s.setA v).iff1 = s.iff1 := rfl
@[simp] theorem State.setA_iff2 : (s.setA v).iff2 = s.iff2 := rfl
@[simp] theorem State.setA_im : (s.setA v).im = s.im := rfl
@[simp] theorem State.setA_halted : (s.setA v).halted = s.halted := rfl
@[simp] theorem State.setA_shadow : (s.setA v).shadow = s.shadow := rfl
@[simp] theorem State.setA_nmiPending : (s.setA v).nmiPending = s.nmiPending := rfl
@[simp] theorem State.setA_intLine : (s.setA v).intLine = s.intLine := rfl
@[simp] theorem State.setA_intAckByte : (s.setA v).intAckByte = s.intAckByte := rfl
@[simp] theorem State.setA_tstates : (s.setA v).tstates = s.tstates := rfl
@[simp] theorem State.setA_decode : (s.setA v).decode = s.decode := rfl
@[simp] theorem State.setA_eiDelay : (s.setA v).eiDelay = s.eiDelay := rfl
@[simp] theorem State.setA_bus : (s.setA v).bus = s.bus := rfl

end setA

section setF

variable (s : State) (v : Byte)

@[simp] theorem State.setF_main : (s.setF v).main = { s.main with f := v } := rfl
@[simp] theorem State.setF_alt : (s.setF v).alt = s.alt := rfl
@[simp] theorem State.setF_ix : (s.setF v).ix = s.ix := rfl
@[simp] theorem State.setF_iy : (s.setF v).iy = s.iy := rfl
@[simp] theorem State.setF_sp : (s.setF v).sp = s.sp := rfl
@[simp] theorem State.setF_pc : (s.setF v).pc = s.pc := rfl
@[simp] theorem State.setF_i : (s.setF v).i = s.i := rfl
@[simp] theorem State.setF_r : (s.setF v).r = s.r := rfl
@[simp] theorem State.setF_iff1 : (s.setF v).iff1 = s.iff1 := rfl
@[simp] theorem State.setF_iff2 : (s.setF v).iff2 = s.iff2 := rfl
@[simp] theorem State.setF_im : (s.setF v).im = s.im := rfl
@[simp] theorem State.setF_halted : (s.setF v).halted = s.halted := rfl
@[simp] theorem State.setF_shadow : (s.setF v).shadow = s.shadow := rfl
@[simp] theorem State.setF_nmiPending : (s.setF v).nmiPending = s.nmiPending := rfl
@[simp] theorem State.setF_intLine : (s.setF v).intLine = s.intLine := rfl
@[simp] theorem State.setF_intAckByte : (s.setF v).intAckByte = s.intAckByte := rfl
@[simp] theorem State.setF_tstates : (s.setF v).tstates = s.tstates := rfl
@[simp] theorem State.setF_decode : (s.setF v).decode = s.decode := rfl
@[simp] theorem State.setF_eiDelay : (s.setF v).eiDelay = s.eiDelay := rfl
@[simp] theorem State.setF_bus : (s.setF v).bus = s.bus := rfl

end setF

section setB

variable (s : State) (v : Byte)

@[simp] theorem State.setB_main : (s.setB v).main = { s.main with b := v } := rfl
@[simp] theorem State.setB_alt : (s.setB v).alt = s.alt := rfl
@[simp] theorem State.setB_ix : (s.setB v).ix = s.ix := rfl
@[simp] theorem State.setB_iy : (s.setB v).iy = s.iy := rfl
@[simp] theorem State.setB_sp : (s.setB v).sp = s.sp := rfl
@[simp] theorem State.setB_pc : (s.setB v).pc = s.pc := rfl
@[simp] theorem State.setB_i : (s.setB v).i = s.i := rfl
@[simp] theorem State.setB_r : (s.setB v).r = s.r := rfl
@[simp] theorem State.setB_iff1 : (s.setB v).iff1 = s.iff1 := rfl
@[simp] theorem State.setB_iff2 : (s.setB v).iff2 = s.iff2 := rfl
@[simp] theorem State.setB_im : (s.setB v).im = s.im := rfl
@[simp] theorem State.setB_halted : (s.setB v).halted = s.halted := rfl
@[simp] theorem State.setB_shadow : (s.setB v).shadow = s.shadow := rfl
@[simp] theorem State.setB_nmiPending : (s.setB v).nmiPending = s.nmiPending := rfl
@[simp] theorem State.setB_intLine : (s.setB v).intLine = s.intLine := rfl
@[simp] theorem State.setB_intAckByte : (s.setB v).intAckByte = s.intAckByte := rfl
@[simp] theorem State.setB_tstates : (s.setB v).tstates = s.tstates := rfl
@[simp] theorem State.setB_decode : (s.setB v).decode = s.decode := rfl
@[simp] theorem State.setB_eiDelay : (s.setB v).eiDelay = s.eiDelay := rfl
@[simp] theorem State.setB_bus : (s.setB v).bus = s.bus := rfl

end setB

section afterRead

variable (s : State) (a : Word)

@[simp] theorem State.afterRead_main : (s.afterRead a).main = s.main := rfl
@[simp] theorem State.afterRead_alt : (s.afterRead a).alt = s.alt := rfl
@[simp] theorem State.afterRead_ix : (s.afterRead a).ix = s.ix := rfl
@[simp] theorem State.afterRead_iy : (s.afterRead a).iy = s.iy := rfl
@[simp] theorem State.afterRead_sp : (s.afterRead a).sp = s.sp := rfl
@[simp] theorem State.afterRead_pc : (s.afterRead a).pc = s.pc := rfl
@[simp] theorem State.afterRead_i : (s.afterRead a).i = s.i := rfl
@[simp] theorem State.afterRead_r : (s.afterRead a).r = s.r := rfl
@[simp] theorem State.afterRead_iff1 : (s.afterRead a).iff1 = s.iff1 := rfl
@[simp] theorem State.afterRead_iff2 : (s.afterRead a).iff2 = s.iff2 := rfl
@[simp] theorem State.afterRead_im : (s.afterRead a).im = s.im := rfl
@[simp] theorem State.afterRead_halted : (s.afterRead a).halted = s.halted := rfl
@[simp] theorem State.afterRead_shadow : (s.afterRead a).shadow = s.shadow := rfl
@[simp] theorem State.afterRead_nmiPending : (s.afterRead a).nmiPending = s.nmiPending := rfl
@[simp] theorem State.afterRead_intLine : (s.afterRead a).intLine = s.intLine := rfl
@[simp] theorem State.afterRead_intAckByte : (s.afterRead a).intAckByte = s.intAckByte := rfl
@[simp] theorem State.afterRead_tstates : (s.afterRead a).tstates = s.tstates := rfl
@[simp] theorem State.afterRead_decode : (s.afterRead a).decode = s.decode := rfl
@[simp] theorem State.afterRead_eiDelay : (s.afterRead a).eiDelay = s.eiDelay := rfl
@[simp] theorem State.afterRead_bus : (s.afterRead a).bus =
    s.bus.called (.readByte a (s.bus.memAnswer a)) := rfl

end afterRead

section memWrite

variable (s : State) (a : Word) (v : Byte)

@[simp] theorem State.memWrite_main : (s.memWrite a v).main = s.main := rfl
@[simp] theorem State.memWrite_alt : (s.memWrite a v).alt = s.alt := rfl
@[simp] theorem State.memWrite_ix : (s.memWrite a v).ix = s.ix := rfl
@[simp] theorem State.memWrite_iy : (s.memWrite a v).iy = s.iy := rfl
@[simp] theorem State.memWrite_sp : (s.memWrite a v).sp = s.sp := rfl
@[simp] theorem State.memWrite_pc : (s.memWrite a v).pc = s.pc := rfl
@[simp] theorem State.memWrite_i : (s.memWrite a v).i = s.i := rfl
@[simp] theorem State.memWrite_r : (s.memWrite a v).r = s.r := rfl
@[simp] theorem State.memWrite_iff1 : (s.memWrite a v).iff1 = s.iff1 := rfl
@[simp] theorem State.memWrite_iff2 : (s.memWrite a v).iff2 = s.iff2 := rfl
@[simp] theorem State.memWrite_im : (s.memWrite a v).im = s.im := rfl
@[simp] theorem State.memWrite_halted : (s.memWrite a v).halted = s.halted := rfl
@[simp] theorem State.memWrite_shadow : (s.memWrite a v).shadow = s.shadow := rfl
@[simp] theorem State.memWrite_nmiPending : (s.memWrite a v).nmiPending = s.nmiPending := rfl
@[simp] theorem State.memWrite_intLine : (s.memWrite a v).intLine = s.intLine := rfl
@[simp] theorem State.memWrite_intAckByte : (s.memWrite a v).intAckByte = s.intAckByte := rfl
@[simp] theorem State.memWrite_tstates : (s.memWrite a v).tstates = s.tstates := rfl
@[simp] theorem State.memWrite_decode : (s.memWrite a v).decode = s.decode := rfl
@[simp] theorem State.memWrite_eiDelay : (s.memWrite a v).eiDelay = s.eiDelay := rfl
@[simp] theorem State.memWrite_bus : (s.memWrite a v).bus = s.bus.writeByte a v := rfl

end memWrite

section afterPortRead

variable (s : State) (p : Word)

@[simp] theorem State.afterPortRead_main : (s.afterPortRead p).main = s.main := rfl
@[simp] theorem State.afterPortRead_alt : (s.afterPortRead p).alt = s.alt := rfl
@[simp] theorem State.afterPortRead_ix : (s.afterPortRead p).ix = s.ix := rfl
@[simp] theorem State.afterPortRead_iy : (s.afterPortRead p).iy = s.iy := rfl
@[simp] theorem State.afterPortRead_sp : (s.afterPortRead p).sp = s.sp := rfl
@[simp] theorem State.afterPortRead_pc : (s.afterPortRead p).pc = s.pc := rfl
@[simp] theorem State.afterPortRead_i : (s.afterPortRead p).i = s.i := rfl
@[simp] theorem State.afterPortRead_r : (s.afterPortRead p).r = s.r := rfl
@[simp] theorem State.afterPortRead_iff1 : (s.afterPortRead p).iff1 = s.iff1 := rfl
@[simp] theorem State.afterPortRead_iff2 : (s.afterPortRead p).iff2 = s.iff2 := rfl
@[simp] theorem State.afterPortRead_im : (s.afterPortRead p).im = s.im := rfl
@[simp] theorem State.afterPortRead_halted : (s.afterPortRead p).halted = s.halted := rfl
@[simp] theorem State.afterPortRead_shadow : (s.afterPortRead p).shadow = s.shadow := rfl
@[simp] theorem State.afterPortRead_nmiPending : (s.afterPortRead p).nmiPending = s.nmiPending := rfl
@[simp] theorem State.afterPortRead_intLine : (s.afterPortRead p).intLine = s.intLine := rfl
@[simp] theorem State.afterPortRead_intAckByte : (s.afterPortRead p).intAckByte = s.intAckByte := rfl
@[simp] theorem State.afterPortRead_tstates : (s.afterPortRead p).tstates = s.tstates := rfl
@[simp] theorem State.afterPortRead_decode : (s.afterPortRead p).decode = s.decode := rfl
@[simp] theorem State.afterPortRead_eiDelay : (s.afterPortRead p).eiDelay = s.eiDelay := rfl
@[simp] theorem State.afterPortRead_bus : (s.afterPortRead p).bus =
    s.bus.called (.readPort p (s.bus.portAnswer p)) := rfl

end afterPortRead

section portWrite

variable (s : State) (p : Word) (v : Byte)

@[simp] theorem State.portWrite_main : (s.portWrite p v).main = s.main := rfl
@[simp] theorem State.portWrite_alt : (s.portWrite p v).alt = s.alt := rfl
@[simp] theorem State.portWrite_ix : (s.portWrite p v).ix = s.ix := rfl
@[simp] theorem State.portWrite_iy : (s.portWrite p v).iy = s.iy := rfl
@[simp] theorem State.portWrite_sp : (s.portWrite p v).sp = s.sp := rfl
@[simp] theorem State.portWrite_pc : (s.portWrite p v).pc = s.pc := rfl
@[simp] theorem State.portWrite_i : (s.portWrite p v).i = s.i := rfl
@[simp] theorem State.portWrite_r : (s.portWrite p v).r = s.r := rfl
@[simp] theorem State.portWrite_iff1 : (s.portWrite p v).iff1 = s.iff1 := rfl
@[simp] theorem State.portWrite_iff2 : (s.portWrite p v).iff2 = s.iff2 := rfl
@[simp] theorem State.portWrite_im : (s.portWrite p v).im = s.im := rfl
@[simp] theorem State.portWrite_halted : (s.portWrite p v).halted = s.halted := rfl
@[simp] theorem State.portWrite_shadow : (s.portWrite p v).shadow = s.shadow := rfl
@[simp] theorem State.portWrite_nmiPending : (s.portWrite p v).nmiPending = s.nmiPending := rfl
@[simp] theorem State.portWrite_intLine : (s.portWrite p v).intLine = s.intLine := rfl
@[simp] theorem State.portWrite_intAckByte : (s.portWrite p v).intAckByte = s.intAckByte := rfl
@[simp] theorem State.portWrite_tstates : (s.portWrite p v).tstates = s.tstates := rfl
@[simp] theorem State.portWrite_decode : (s.portWrite p v).decode = s.decode := rfl
@[simp] theorem State.portWrite_eiDelay : (s.portWrite p v).eiDelay = s.eiDelay := rfl
@[simp] theorem State.portWrite_bus : (s.portWrite p v).bus = s.bus.called (.writePort p v) := rfl

end portWrite

section afterReadWord

variable (s : State) (a : Word)

@[simp] theorem State.afterReadWord_main : (s.afterReadWord a).main = s.main := rfl
@[simp] theorem State.afterReadWord_alt : (s.afterReadWord a).alt = s.alt := rfl
@[simp] theorem State.afterReadWord_ix : (s.afterReadWord a).ix = s.ix := rfl
@[simp] theorem State.afterReadWord_iy : (s.afterReadWord a).iy = s.iy := rfl
@[simp] theorem State.afterReadWord_sp : (s.afterReadWord a).sp = s.sp := rfl
@[simp] theorem State.afterReadWord_pc : (s.afterReadWord a).pc = s.pc := rfl
@[simp] theorem State.afterReadWord_i : (s.afterReadWord a).i = s.i := rfl
@[simp] theorem State.afterReadWord_r : (s.afterReadWord a).r = s.r := rfl
@[simp] theorem State.afterReadWord_iff1 : (s.afterReadWord a).iff1 = s.iff1 := rfl
@[simp] theorem State.afterReadWord_iff2 : (s.afterReadWord a).iff2 = s.iff2 := rfl
@[simp] theorem State.afterReadWord_im : (s.afterReadWord a).im = s.im := rfl
@[simp] theorem State.afterReadWord_halted : (s.afterReadWord a).halted = s.halted := rfl
@[simp] theorem State.afterReadWord_shadow : (s.afterReadWord a).shadow = s.shadow := rfl
@[simp] theorem State.afterReadWord_nmiPending : (s.afterReadWord a).nmiPending = s.nmiPending := rfl
@[simp] theorem State.afterReadWord_intLine : (s.afterReadWord a).intLine = s.intLine := rfl
@[simp] theorem State.afterReadWord_intAckByte : (s.afterReadWord a).intAckByte = s.intAckByte := rfl
@[simp] theorem State.afterReadWord_tstates : (s.afterReadWord a).tstates = s.tstates := rfl
@[simp] theorem State.afterReadWord_decode : (s.afterReadWord a).decode = s.decode := rfl
@[simp] theorem State.afterReadWord_eiDelay : (s.afterReadWord a).eiDelay = s.eiDelay := rfl

end afterReadWord

section memWriteWord

variable (s : State) (a v : Word)

@[simp] theorem State.memWriteWord_main : (s.memWriteWord a v).main = s.main := rfl
@[simp] theorem State.memWriteWord_alt : (s.memWriteWord a v).alt = s.alt := rfl
@[simp] theorem State.memWriteWord_ix : (s.memWriteWord a v).ix = s.ix := rfl
@[simp] theorem State.memWriteWord_iy : (s.memWriteWord a v).iy = s.iy := rfl
@[simp] theorem State.memWriteWord_sp : (s.memWriteWord a v).sp = s.sp := rfl
@[simp] theorem State.memWriteWord_pc : (s.memWriteWord a v).pc = s.pc := rfl
@[simp] theorem State.memWriteWord_i : (s.memWriteWord a v).i = s.i := rfl
@[simp] theorem State.memWriteWord_r : (s.memWriteWord a v).r = s.r := rfl
@[simp] theorem State.memWriteWord_iff1 : (s.memWriteWord a v).iff1 = s.iff1 := rfl
@[simp] theorem State.memWriteWord_iff2 : (s.memWriteWord a v).iff2 = s.iff2 := rfl
@[simp] theorem State.memWriteWord_im : (s.memWriteWord a v).im = s.im := rfl
@[simp] theorem State.memWriteWord_halted : (s.memWriteWord a v).halted = s.halted := rfl
@[simp] theorem State.memWriteWord_shadow : (s.memWriteWord a v).shadow = s.shadow := rfl
@[simp] theorem State.memWriteWord_nmiPending : (s.memWriteWord a v).nmiPending = s.nmiPending := rfl
@[simp] theorem State.memWriteWord_intLine : (s.memWriteWord a v).intLine = s.intLine := rfl
@[simp] theorem State.memWriteWord_intAckByte : (s.memWriteWord a v).intAckByte = s.intAckByte := rfl
@[simp] theorem State.memWriteWord_tstates : (s.memWriteWord a v).tstates = s.tstates := rfl
@[simp] theorem State.memWriteWord_decode : (s.memWriteWord a v).decode = s.decode := rfl
@[simp] theorem State.memWriteWord_eiDelay : (s.memWriteWord a v).eiDelay = s.eiDelay := rfl
@[simp] theorem State.memWriteWord_bus : (s.memWriteWord a v).bus =
    (s.bus.writeByte a (lo v)).writeByte (a + 1) (hi v) := rfl

end memWriteWord

section push16

variable (s : State) (v : Word)

@[simp] theorem State.push16_main : (s.push16 v).main = s.main := rfl
@[simp] theorem State.push16_alt : (s.push16 v).alt = s.alt := rfl
@[simp] theorem State.push16_ix : (s.push16 v).ix = s.ix := rfl
@[simp] theorem State.push16_iy : (s.push16 v).iy = s.iy := rfl
@[simp] theorem State.push16_sp : (s.push16 v).sp = s.sp - 2 := rfl
@[simp] theorem State.push16_pc : (s.push16 v).pc = s.pc := rfl
@[simp] theorem State.push16_i : (s.push16 v).i = s.i := rfl
@[simp] theorem State.push16_r : (s.push16 v).r = s.r := rfl
@[simp] theorem State.push16_iff1 : (s.push16 v).iff1 = s.iff1 := rfl
@[simp] theorem State.push16_iff2 : (s.push16 v).iff2 = s.iff2 := rfl
@[simp] theorem State.push16_im : (s.push16 v).im = s.im := rfl
@[simp] theorem State.push16_halted : (s.push16 v).halted = s.halted := rfl
@[simp] theorem State.push16_shadow : (s.push16 v).shadow = s.shadow := rfl
@[simp] theorem State.push16_nmiPending : (s.push16 v).nmiPending = s.nmiPending := rfl
@[simp] theorem State.push16_intLine : (s.push16 v).intLine = s.intLine := rfl
@[simp] theorem State.push16_intAckByte : (s.push16 v).intAckByte = s.intAckByte := rfl
@[simp] theorem State.push16_tstates : (s.push16 v).tstates = s.tstates := rfl
@[simp] theorem State.push16_decode : (s.push16 v).decode = s.decode := rfl
@[simp] theorem State.push16_eiDelay : (s.push16 v).eiDelay = s.eiDelay := rfl
@[simp] theorem State.push16_bus : (s.push16 v).bus =
    (s.bus.writeByte (s.sp - 1) (hi v)).writeByte (s.sp - 2) (lo v) := rfl

end push16

section afterPop

variable (s : State)

@[simp] theorem State.afterPop_main : (s.afterPop).main = s.main := rfl
@[simp] theorem State.afterPop_alt : (s.afterPop).alt = s.alt := rfl
@[simp] theorem State.afterPop_ix : (s.afterPop).ix = s.ix := rfl
@[simp] theorem State.afterPop_iy : (s.afterPop).iy = s.iy := rfl
@[simp] theorem State.afterPop_sp : (s.afterPop).sp = s.sp + 2 := rfl
@[simp] theorem State.afterPop_pc : (s.afterPop).pc = s.pc := rfl
@[simp] theorem State.afterPop_i : (s.afterPop).i = s.i := rfl
@[simp] theorem State.afterPop_r : (s.afterPop).r = s.r := rfl
@[simp] theorem State.afterPop_iff1 : (s.afterPop).iff1 = s.iff1 := rfl
@[simp] theorem State.afterPop_iff2 : (s.afterPop).iff2 = s.iff2 := rfl
@[simp] theorem State.afterPop_im : (s.afterPop).im = s.im := rfl
@[simp] theorem State.afterPop_halted : (s.afterPop).halted = s.halted := rfl
@[simp] theorem State.afterPop_shadow : (s.afterPop).shadow = s.shadow := rfl
@[simp] theorem State.afterPop_nmiPending : (s.afterPop).nmiPending = s.nmiPending := rfl
@[simp] theorem State.afterPop_intLine : (s.afterPop).intLine = s.intLine := rfl
@[simp] theorem State.afterPop_intAckByte : (s.afterPop).intAckByte = s.intAckByte := rfl
@[simp] theorem State.afterPop_tstates : (s.afterPop).tstates = s.tstates := rfl
@[simp] theorem State.afterPop_decode : (s.afterPop).decode = s.decode := rfl
@[simp] theorem State.afterPop_eiDelay : (s.afterPop).eiDelay = s.eiDelay := rfl

end afterPop

section setPc

variable (s : State) (a : Word)

@[simp] theorem State.setPc_main : (s.setPc a).main = s.main := rfl
@[simp] theorem State.setPc_alt : (s.setPc a).alt = s.alt := rfl
@[simp] theorem State.setPc_ix : (s.setPc a).ix = s.ix := rfl
@[simp] theorem State.setPc_iy : (s.setPc a).iy = s.iy := rfl
@[simp] theorem State.setPc_sp : (s.setPc a).sp = s.sp := rfl
@[simp] theorem State.setPc_pc : (s.setPc a).pc = a := rfl
@[simp] theorem State.setPc_i : (s.setPc a).i = s.i := rfl
@[simp] theorem State.setPc_r : (s.setPc a).r = s.r := rfl
@[simp] theorem State.setPc_iff1 : (s.setPc a).iff1 = s.iff1 := rfl
@[simp] theorem State.setPc_iff2 : (s.setPc a).iff2 = s.iff2 := rfl
@[simp] theorem State.setPc_im : (s.setPc a).im = s.im := rfl
@[simp] theorem State.setPc_halted : (s.setPc a).halted = s.halted := rfl
@[simp] theorem State.setPc_shadow : (s.setPc a).shadow = s.shadow := rfl
@[simp] theorem State.setPc_nmiPending : (s.setPc a).nmiPending = s.nmiPending := rfl
@[simp] theorem State.setPc_intLine : (s.setPc a).intLine = s.intLine := rfl
@[simp] theorem State.setPc_intAckByte : (s.setPc a).intAckByte = s.intAckByte := rfl
@[simp] theorem State.setPc_tstates : (s.setPc a).tstates = s.tstates := rfl
@[simp] theorem State.setPc_decode : (s.setPc a).decode = s.decode := rfl
@[simp] theorem State.setPc_eiDelay : (s.setPc a).eiDelay = s.eiDelay := rfl
@[simp] theorem State.setPc_bus : (s.setPc a).bus = s.bus := rfl

end setPc

section incR

variable (s : State) (k : Nat)

@[simp] theorem State.incR_main : (s.incR k).main = s.main := rfl
@[simp] theorem State.incR_alt : (s.incR k).alt = s.alt := rfl
@[simp] theorem State.incR_ix : (s.incR k).ix = s.ix := rfl
@[simp] theorem State.incR_iy : (s.incR k).iy = s.iy := rfl
@[simp] theorem State.incR_sp : (s.incR k).sp = s.sp := rfl
@[simp] theorem State.incR_pc : (s.incR k).pc = s.pc := rfl
@[simp] theorem State.incR_i : (s.incR k).i = s.i := rfl
@[simp] theorem State.incR_r : (s.incR k).r = (s.r &&& 0x80) ||| ((s.r + BitVec.ofNat 8 k) &&& 0x7F) := rfl
@[simp] theorem State.incR_iff1 : (s.incR k).iff1 = s.iff1 := rfl
@[simp] theorem State.incR_iff2 : (s.incR k).iff2 = s.iff2 := rfl
@[simp] theorem State.incR_im : (s.incR k).im = s.im := rfl
@[simp] theorem State.incR_halted : (s.incR k).halted = s.halted := rfl
@[simp] theorem State.incR_shadow : (s.incR k).shadow = s.shadow := rfl
@[simp] theorem State.incR_nmiPending : (s.incR k).nmiPending = s.nmiPending := rfl
@[simp] theorem State.incR_intLine : (s.incR k).intLine = s.intLine := rfl
@[simp] theorem State.incR_intAckByte : (s.incR k).intAckByte = s.intAckByte := rfl
@[simp] theorem State.incR_tstates : (s.incR k).tstates = s.tstates := rfl
@[simp] theorem State.incR_decode : (s.incR k).decode = s.decode := rfl
@[simp] theorem State.incR_eiDelay : (s.incR k).eiDelay = s.eiDelay := rfl
@[simp] theorem State.incR_bus : (s.incR k).bus = s.bus := rfl

end incR

section cost

variable (s : State) (n : Nat)

@[simp] theorem State.cost_main : (s.cost n).main = s.main := rfl
@[simp] theorem State.cost_alt : (s.cost n).alt = s.alt := rfl
@[simp] theorem State.cost_ix : (s.cost n).ix = s.ix := rfl
@[simp] theorem State.cost_iy : (s.cost n).iy = s.iy := rfl
@[simp] theorem State.cost_sp : (s.cost n).sp = s.sp := rfl
@[simp] theorem State.cost_pc : (s.cost n).pc = s.pc := rfl
@[simp] theorem State.cost_i : (s.cost n).i = s.i := rfl
@[simp] theorem State.cost_r : (s.cost n).r = s.r := rfl
@[simp] theorem State.cost_iff1 : (s.cost n).iff1 = s.iff1 := rfl
@[simp] theorem State.cost_iff2 : (s.cost n).iff2 = s.iff2 := rfl
@[simp] theorem State.cost_im : (s.cost n).im = s.im := rfl
@[simp] theorem State.cost_halted : (s.cost n).halted = s.halted := rfl
@[simp] theorem State.cost_shadow : (s.cost n).shadow = s.shadow := rfl
@[simp] theorem State.cost_nmiPending : (s.cost n).nmiPending = s.nmiPending := rfl
@[simp] theorem State.cost_intLine : (s.cost n).intLine = s.intLine := rfl
@[simp] theorem State.cost_intAckByte : (s.cost n).intAckByte = s.intAckByte := rfl
@[simp] theorem State.cost_tstates : (s.cost n).tstates = s.tstates + n := rfl
@[simp] theorem State.cost_decode : (s.cost n).decode = s.decode := rfl
@[simp] theorem State.cost_eiDelay : (s.cost n).eiDelay = s.eiDelay := rfl
@[simp] theorem State.cost_bus : (s.cost n).bus = s.bus := rfl

end cost

section noShadow

variable (s : State)

@[simp] theorem State.noShadow_main : (s.noShadow).main = s.main := rfl
@[simp] theorem State.noShadow_alt : (s.noShadow).alt = s.alt := rfl
@[simp] theorem State.noShadow_ix : (s.noShadow).ix = s.ix := rfl
@[simp] theorem State.noShadow_iy : (s.noShadow).iy = s.iy := rfl
@[simp] theorem State.noShadow_sp : (s.noShadow).sp = s.sp := rfl
@[simp] theorem State.noShadow_pc : (s.noShadow).pc = s.pc := rfl
@[simp] theorem State.noShadow_i : (s.noShadow).i = s.i := rfl
@[simp] theorem State.noShadow_r : (s.noShadow).r = s.r := rfl
@[simp] theorem State.noShadow_iff1 : (s.noShadow).iff1 = s.iff1 := rfl
@[simp] theorem State.noShadow_iff2 : (s.noShadow).iff2 = s.iff2 := rfl
@[simp] theorem State.noShadow_im : (s.noShadow).im = s.im := rfl
@[simp] theorem State.noShadow_halted : (s.noShadow).halted = s.halted := rfl
@[simp] theorem State.noShadow_shadow : (s.noShadow).shadow = .none := rfl
@[simp] theorem State.noShadow_nmiPending : (s.noShadow).nmiPending = s.nmiPending := rfl
@[simp] theorem State.noShadow_intLine : (s.noShadow).intLine = s.intLine := rfl
@[simp] theorem State.noShadow_intAckByte : (s.noShadow).intAckByte = s.intAckByte := rfl
@[simp] theorem State.noShadow_tstates : (s.noShadow).tstates = s.tstates := rfl
@[simp] theorem State.noShadow_decode : (s.noShadow).decode = s.decode := rfl
@[simp] theorem State.noShadow_eiDelay : (s.noShadow).eiDelay = s.eiDelay := rfl
@[simp] theorem State.noShadow_bus : (s.noShadow).bus = s.bus := rfl

end noShadow

section returnFromInterrupt

variable (s : State)

@[simp] theorem State.returnFromInterrupt_main : (s.returnFromInterrupt).main = s.main := rfl
@[simp] theorem State.returnFromInterrupt_alt : (s.returnFromInterrupt).alt = s.alt := rfl
@[simp] theorem State.returnFromInterrupt_ix : (s.returnFromInterrupt).ix = s.ix := rfl
@[simp] theorem State.returnFromInterrupt_iy : (s.returnFromInterrupt).iy = s.iy := rfl
@[simp] theorem State.returnFromInterrupt_sp : (s.returnFromInterrupt).sp = s.sp + 2 := rfl
@[simp] theorem State.returnFromInterrupt_pc : (s.returnFromInterrupt).pc = s.popWord := rfl
@[simp] theorem State.returnFromInterrupt_i : (s.returnFromInterrupt).i = s.i := rfl
@[simp] theorem State.returnFromInterrupt_r : (s.returnFromInterrupt).r = s.r := rfl
@[simp] theorem State.returnFromInterrupt_iff1 : (s.returnFromInterrupt).iff1 = s.iff2 := rfl
@[simp] theorem State.returnFromInterrupt_iff2 : (s.returnFromInterrupt).iff2 = s.iff2 := rfl
@[simp] theorem State.returnFromInterrupt_im : (s.returnFromInterrupt).im = s.im := rfl
@[simp] theorem State.returnFromInterrupt_halted : (s.returnFromInterrupt).halted = s.halted := rfl
@[simp] theorem State.returnFromInterrupt_shadow : (s.returnFromInterrupt).shadow = s.shadow := rfl
@[simp] theorem State.returnFromInterrupt_nmiPending : (s.returnFromInterrupt).nmiPending =
    s.nmiPending := rfl
@[simp] theorem State.returnFromInterrupt_intLine : (s.returnFromInterrupt).intLine = s.intLine := rfl
@[simp] theorem State.returnFromInterrupt_intAckByte : (s.returnFromInterrupt).intAckByte =
    s.intAckByte := rfl
@[simp] theorem State.returnFromInterrupt_tstates : (s.returnFromInterrupt).tstates = s.tstates := rfl
@[simp] theorem State.returnFromInterrupt_decode : (s.returnFromInterrupt).decode = s.decode := rfl
@[simp] theorem State.returnFromInterrupt_eiDelay : (s.returnFromInterrupt).eiDelay = s.eiDelay := rfl

end returnFromInterrupt

section enterHandler

variable (s : State) (e : Bool) (g : State → Word)

@[simp] theorem State.enterHandler_main : (s.enterHandler e g).main = s.main := rfl
@[simp] theorem State.enterHandler_alt : (s.enterHandler e g).alt = s.alt := rfl
@[simp] theorem State.enterHandler_ix : (s.enterHandler e g).ix = s.ix := rfl
@[simp] theorem State.enterHandler_iy : (s.enterHandler e g).iy = s.iy := rfl
@[simp] theorem State.enterHandler_sp : (s.enterHandler e g).sp = s.sp - 2 := rfl
@[simp] theorem State.enterHandler_i : (s.enterHandler e g).i = s.i := rfl
@[simp] theorem State.enterHandler_r : (s.enterHandler e g).r =
    (s.r &&& 0x80) ||| ((s.r + BitVec.ofNat 8 1) &&& 0x7F) := rfl
@[simp] theorem State.enterHandler_iff1 : (s.enterHandler e g).iff1 = false := rfl
@[simp] theorem State.enterHandler_iff2 : (s.enterHandler e g).iff2 = e := rfl
@[simp] theorem State.enterHandler_im : (s.enterHandler e g).im = s.im := rfl
@[simp] theorem State.enterHandler_halted : (s.enterHandler e g).halted = false := rfl
@[simp] theorem State.enterHandler_shadow : (s.enterHandler e g).shadow = .none := rfl
@[simp] theorem State.enterHandler_nmiPending : (s.enterHandler e g).nmiPending = s.nmiPending := rfl
@[simp] theorem State.enterHandler_intLine : (s.enterHandler e g).intLine = s.intLine := rfl
@[simp] theorem State.enterHandler_intAckByte : (s.enterHandler e g).intAckByte = s.intAckByte := rfl
@[simp] theorem State.enterHandler_tstates : (s.enterHandler e g).tstates = s.tstates := rfl
@[simp] theorem State.enterHandler_decode : (s.enterHandler e g).decode = s.decode := rfl
@[simp] theorem State.enterHandler_eiDelay : (s.enterHandler e g).eiDelay = s.eiDelay := rfl
@[simp] theorem State.enterHandler_bus : (s.enterHandler e g).bus =
    (s.bus.writeByte (s.sp - 1) (hi s.pc)).writeByte (s.sp - 2) (lo s.pc) := rfl

end enterHandler

end Sys2Proof.Machine
end

