-- ==== Sys2Proof/Laws/Frame.lean ====
section
/-! SUPPORT. What each shared operation changes, costs and calls, said once, and how footprints compose: a proof about an
instruction cites these and unfolds no operation. -/

namespace Sys2Proof.Machine

/-! ### Frames compose -/

theorem KeepsBut.refl (ps : List Place) (s : State) : KeepsBut ps s s := fun _ _ => rfl

theorem KeepsBut.mono {ps qs : List Place} {s t : State} (h : KeepsBut ps s t) (hs : ∀ p, p ∈ ps → p ∈ qs) :
    KeepsBut qs s t := fun p hp => h p fun hq => hp (hs p hq)

theorem KeepsBut.trans {ps qs : List Place} {s t u : State} (h : KeepsBut ps s t) (h' : KeepsBut qs t u) :
    KeepsBut (ps ++ qs) s u := fun p hp => by
  rw [List.mem_append, not_or] at hp
  rw [h' p hp.2, h p hp.1]

theorem RamKeepsBut.refl (l : List Word) (s : State) : RamKeepsBut l s s := fun _ _ => rfl

/-- The same list of cells reads the same. -/
theorem RamKeepsBut.of_eq {s t : State} (h : t.bus.ram = s.bus.ram) (l : List Word) : RamKeepsBut l s t :=
  fun a _ => by rw [Bus.ramByte, Bus.ramByte, h]

theorem RamKeepsBut.mono {l m : List Word} {s t : State} (h : RamKeepsBut l s t) (hs : ∀ a, a ∈ l → a ∈ m) :
    RamKeepsBut m s t := fun a ha => h a fun hq => ha (hs a hq)

theorem RamKeepsBut.trans {l m : List Word} {s t u : State} (h : RamKeepsBut l s t) (h' : RamKeepsBut m t u) :
    RamKeepsBut (l ++ m) s u := fun a ha => by
  rw [List.mem_append, not_or] at ha
  rw [h' a ha.2, h a ha.1]

/-- Two footprints in a row: costs add, places and stores join, the later calls stand first. -/
theorem Within.comp {k k' : Footprint} {s t u : State} (h : Within k s t) (h' : Within k' t u) :
    Within { cost := k.cost + k'.cost, places := k.places ++ k'.places, stores := k.stores ++ k'.stores
             calls := k'.calls ++ k.calls } s u := by
  obtain ⟨hc, hk, hr, ⟨hf, hp⟩, hl⟩ := h
  obtain ⟨hc', hk', hr', ⟨hf', hp'⟩, hl'⟩ := h'
  refine ⟨?_, ?_, hr.trans hr', ⟨hf'.trans hf, hp'.trans hp⟩, ?_⟩
  · show u.tstates = s.tstates + (k.cost + k'.cost)
    omega
  · refine (hk.trans hk').mono fun p hq => ?_
    simp only [List.mem_append, List.mem_cons] at hq ⊢
    tauto
  · rw [hl', hl, List.append_assoc]

/-- A footprint may name more places and more stores. -/
theorem Within.weaken {k k' : Footprint} {s t : State} (h : Within k s t) (hc : k'.cost = k.cost)
    (hp : ∀ p, p ∈ k.places → p ∈ k'.places) (hs : ∀ a, a ∈ k.stores → a ∈ k'.stores)
    (hl : k'.calls = k.calls) : Within k' s t := by
  obtain ⟨h1, h2, h3, h4, h5⟩ := h
  refine ⟨hc ▸ h1, h2.mono fun p hq => ?_, h3.mono hs, h4, hl ▸ h5⟩
  simp only [List.mem_cons] at hq ⊢
  exact hq.imp id (hp p)

/-- An instruction whose next state is known runs within a footprint. -/
theorem Runs.intro {i : Instr} {s : State} {k : Footprint} {post : State → Prop} (t : State)
    (he : exec i s = .next t) (hk : Within k s t) (hp : post t) : Runs i s k post := ⟨t, he, hk, hp⟩

/-! ### What a write does to a read, through a state -/

theorem State.wf_memWrite {s : State} {a : Word} {v : Byte} (hw : Memory.wf s.bus.ram = true) :
    Memory.wf (s.memWrite a v).bus.ram = true := Bus.wf_writeByte hw

/-- One byte stored: every other address reads as before. -/
theorem ramKeepsBut_of_write {s t : State} {a : Word} {v : Byte} (hw : Memory.wf s.bus.ram = true)
    (h : t.bus.ram = (s.bus.writeByte a v).ram) : RamKeepsBut [a] s t := fun c hc => by
  rw [List.mem_singleton] at hc
  have e : t.bus.ramByte c = (s.bus.writeByte a v).ramByte c := by simp [Bus.ramByte, h]
  rw [e, Bus.ramByte_writeByte hw, if_neg fun q => hc q.1]

/-- One byte stored: its address holds it, where the bus owner holds the address as plain RAM. -/
theorem holds_of_write {s t : State} {a : Word} {v : Byte} (hw : Memory.wf s.bus.ram = true)
    (h : t.bus.ram = (s.bus.writeByte a v).ram) : Holds s t a v := fun hf => by
  have e : t.bus.ramByte a = (s.bus.writeByte a v).ramByte a := by simp [Bus.ramByte, h]
  rw [e, Bus.ramByte_writeByte hw, if_pos ⟨rfl, hf⟩]

/-- Two bytes stored: every other address reads as before. -/
theorem ramKeepsBut_of_writes {s t : State} {a b : Word} {v w : Byte} (hw : Memory.wf s.bus.ram = true)
    (h : t.bus.ram = ((s.bus.writeByte a v).writeByte b w).ram) : RamKeepsBut [a, b] s t := fun c hc => by
  have e : t.bus.ramByte c = ((s.bus.writeByte a v).writeByte b w).ramByte c := by simp [Bus.ramByte, h]
  rw [e, Bus.ramByte_writeByte (Bus.wf_writeByte hw), if_neg, Bus.ramByte_writeByte hw, if_neg] <;> simp_all

/-- Two bytes stored at different addresses: both are there. -/
theorem holds_of_writes {s t : State} {a b : Word} {v w : Byte} (hw : Memory.wf s.bus.ram = true) (hab : a ≠ b)
    (h : t.bus.ram = ((s.bus.writeByte a v).writeByte b w).ram) : Holds s t a v ∧ Holds s t b w := by
  refine ⟨fun hf => ?_, fun hf => ?_⟩
  · have e : t.bus.ramByte a = ((s.bus.writeByte a v).writeByte b w).ramByte a := by simp [Bus.ramByte, h]
    rw [e, Bus.ramByte_writeByte (Bus.wf_writeByte hw), if_neg, Bus.ramByte_writeByte hw, if_pos] <;> simp_all
  · have e : t.bus.ramByte b = ((s.bus.writeByte a v).writeByte b w).ramByte b := by simp [Bus.ramByte, h]
    rw [e, Bus.ramByte_writeByte (Bus.wf_writeByte hw), if_pos]
    simp_all

theorem word_addresses_differ (a : Word) : a ≠ a + 1 := by bv_omega

theorem push_addresses_differ (a : Word) : a - 1 ≠ a - 2 := by bv_omega

/-! ### The bus calls (20_memory.md rules R100 to R106) -/

/-- A read makes its call and changes nothing else. -/
theorem State.afterRead_within (s : State) (a : Word) :
    Within { cost := 0, calls := [s.readCall a] } s (s.afterRead a) :=
  ⟨rfl, fun p _ => by cases p <;> rfl, .of_eq rfl _, ⟨rfl, rfl⟩, rfl⟩

/-- A read of a word makes its two calls, low byte first. -/
theorem State.afterReadWord_within (s : State) (a : Word) :
    Within { cost := 0, calls := s.wordCalls a } s (s.afterReadWord a) :=
  ⟨rfl, fun p _ => by cases p <;> rfl, .of_eq rfl _, ⟨rfl, rfl⟩, rfl⟩

/-- A write stores one byte. -/
theorem State.memWrite_within {s : State} (hw : Memory.wf s.bus.ram = true) (a : Word) (v : Byte) :
    Within { cost := 0, stores := [a], calls := [.writeByte a v] } s (s.memWrite a v) ∧
      Holds s (s.memWrite a v) a v :=
  ⟨⟨rfl, fun p _ => by cases p <;> rfl, ramKeepsBut_of_write hw rfl, ⟨rfl, rfl⟩, rfl⟩, holds_of_write hw rfl⟩

/-- A write of a word stores two bytes, low byte first. -/
theorem State.memWriteWord_within {s : State} (hw : Memory.wf s.bus.ram = true) (a v : Word) :
    Within { cost := 0, stores := [a, a + 1]
             calls := [.writeByte (a + 1) (hi v), .writeByte a (lo v)] } s (s.memWriteWord a v) ∧
      Holds s (s.memWriteWord a v) a (lo v) ∧ Holds s (s.memWriteWord a v) (a + 1) (hi v) := by
  refine ⟨⟨rfl, fun p _ => by cases p <;> rfl, ?_, ⟨rfl, rfl⟩, rfl⟩, ?_⟩
  · exact ramKeepsBut_of_writes (v := lo v) (w := hi v) hw (by simp)
  · exact holds_of_writes hw (word_addresses_differ a) (by simp)

/-- A push stores two bytes under SP, high byte first. -/
theorem State.push16_within {s : State} (hw : Memory.wf s.bus.ram = true) (v : Word) :
    Within { cost := 0, places := [.sp], stores := s.pushStores, calls := s.pushCalls v } s (s.push16 v) ∧
      Pushed s (s.push16 v) v := by
  refine ⟨⟨rfl, ?_, ?_, ⟨rfl, rfl⟩, rfl⟩, ?_⟩
  · intro p hp
    cases p <;> first | rfl | simp at hp
  · exact ramKeepsBut_of_writes (v := hi v) (w := lo v) hw (by simp)
  · have h := holds_of_writes (s := s) (t := s.push16 v) (v := hi v) (w := lo v) hw
      (push_addresses_differ s.sp) (by simp)
    exact ⟨by simp, h.1, h.2⟩

/-- A pop reads two bytes at SP and moves SP past them. -/
theorem State.afterPop_within (s : State) :
    Within { cost := 0, places := [.sp], calls := s.wordCalls s.sp } s s.afterPop := by
  refine ⟨rfl, ?_, .of_eq rfl _, ⟨rfl, rfl⟩, rfl⟩
  intro p hp
  cases p <;> first | rfl | simp at hp

/-- A port read makes its call and changes nothing else. -/
theorem State.afterPortRead_within (s : State) (q : Word) :
    Within { cost := 0, calls := [.readPort q (s.portByte q)] } s (s.afterPortRead q) :=
  ⟨rfl, fun p _ => by cases p <;> rfl, .of_eq rfl _, ⟨rfl, rfl⟩, rfl⟩

/-- A port write makes its call and changes nothing else. -/
theorem State.portWrite_within (s : State) (q : Word) (v : Byte) :
    Within { cost := 0, calls := [.writePort q v] } s (s.portWrite q v) :=
  ⟨rfl, fun p _ => by cases p <;> rfl, .of_eq rfl _, ⟨rfl, rfl⟩, rfl⟩

/-! ### Registers -/

theorem State.setReg_within (s : State) (r : Reg8) (v : Byte) :
    Within { cost := 0, places := [Reg8.place r] } s (s.setReg r v) := by
  refine ⟨by simp, ?_, .of_eq (by simp) _, ⟨by simp, by simp⟩, by simp⟩
  intro p hp
  cases p <;> cases r <;> first | rfl | simp [Reg8.place] at hp

theorem State.setIdx_within (s : State) (x : Idx) (v : Word) :
    Within { cost := 0, places := [Idx.place x] } s (s.setIdx x v) := by
  refine ⟨by simp, ?_, .of_eq (by simp) _, ⟨by simp, by simp⟩, by simp⟩
  intro p hp
  cases p <;> cases x <;> first | rfl | simp [Idx.place] at hp

theorem State.setPair_within (s : State) (q : Pair) (v : Word) :
    Within { cost := 0, places := Pair.places q } s (s.setPair q v) := by
  refine ⟨by simp, ?_, .of_eq (by simp) _, ⟨by simp, by simp⟩, by simp⟩
  intro p hp
  cases p <;> cases q <;> first | rfl | simp [Pair.places] at hp

theorem State.setStackPair_within (s : State) (q : StackPair) (v : Word) :
    Within { cost := 0, places := StackPair.places q } s (s.setStackPair q v) := by
  refine ⟨by simp, ?_, .of_eq (by simp) _, ⟨by simp, by simp⟩, by simp⟩
  intro p hp
  cases p <;> cases q <;> first | rfl | simp [StackPair.places] at hp

theorem State.setA_within (s : State) (v : Byte) : Within { cost := 0, places := [.a] } s (s.setA v) := by
  refine ⟨rfl, ?_, .of_eq rfl _, ⟨rfl, rfl⟩, rfl⟩
  intro p hp
  cases p <;> first | rfl | simp at hp

theorem State.setF_within (s : State) (v : Byte) : Within { cost := 0, places := [.f] } s (s.setF v) := by
  refine ⟨rfl, ?_, .of_eq rfl _, ⟨rfl, rfl⟩, rfl⟩
  intro p hp
  cases p <;> first | rfl | simp at hp

theorem State.setPc_within (s : State) (v : Word) : Within { cost := 0, places := [.pc] } s (s.setPc v) := by
  refine ⟨rfl, ?_, .of_eq rfl _, ⟨rfl, rfl⟩, rfl⟩
  intro p hp
  cases p <;> first | rfl | simp at hp

theorem State.cost_within (s : State) (n : Nat) : Within { cost := n } s (s.cost n) := by
  refine ⟨rfl, ?_, .of_eq rfl _, ⟨rfl, rfl⟩, rfl⟩
  intro p hp
  cases p <;> first | rfl | simp at hp

/-! ### R (10_state.md rule R48) -/

/-- The refresh advance as an arithmetic of numbers. -/
theorem refresh_toNat (r : Byte) (k : Nat) :
    ((r &&& 0x80) ||| ((r + BitVec.ofNat 8 k) &&& 0x7F)).toNat = r.toNat / 128 * 128 + (r.toNat + k) % 128 := by
  have h : ∀ r q : Byte, ((r &&& 0x80) ||| (q &&& 0x7F)).toNat = r.toNat / 128 * 128 + q.toNat % 128 := by
    intro r q
    have e1 : (r &&& 0x80).toNat = r.toNat / 128 * 128 := by
      revert r
      decide
    have e2 : (q &&& 0x7F).toNat = q.toNat % 128 := by
      revert q
      decide
    have e3 : (r &&& 0x80) &&& (q &&& 0x7F) = 0 := by
      rw [show (r &&& 0x80) &&& (q &&& 0x7F) = (r &&& q) &&& ((0x80 : Byte) &&& 0x7F) by ac_rfl]
      simp
    rw [← BitVec.add_eq_or_of_and_eq_zero _ _ e3, BitVec.toNat_add, e1, e2]
    have := r.isLt
    omega
  rw [h, BitVec.toNat_add, BitVec.toNat_ofNat]
  omega

theorem State.incR_advances (s : State) (k : Nat) : AdvancesR k s (s.incR k) := by
  refine ⟨?_, ?_⟩
  · show ((s.r &&& 0x80) ||| ((s.r + BitVec.ofNat 8 k) &&& 0x7F)).toNat % 128 = _
    rw [refresh_toNat]
    omega
  · show ((s.r &&& 0x80) ||| ((s.r + BitVec.ofNat 8 k) &&& 0x7F)).getLsbD 7 = _
    simp

theorem State.incR_within (s : State) (k : Nat) : Within { cost := 0, places := [.r] } s (s.incR k) := by
  refine ⟨rfl, ?_, .of_eq rfl _, ⟨rfl, rfl⟩, rfl⟩
  intro p hp
  cases p <;> first | rfl | simp at hp

/-! ### Taking an interrupt (60_exceptions.md rules R604, R605, R610) -/

/-- All that an acceptance does before its cost is charged. -/
theorem State.enterHandler_within {s : State} (hw : Memory.wf s.bus.ram = true) (e : Bool)
    (g : State → Word) :
    Within { cost := 0, places := [.halted, .iff1, .iff2, .r, .sp, .pc, .shadow], stores := s.pushStores
             calls := s.pushCalls s.pc } s (s.enterHandler e g) ∧
      Pushed s (s.enterHandler e g) s.pc ∧ AdvancesR 1 s (s.enterHandler e g) := by
  refine ⟨⟨rfl, ?_, ?_, ⟨rfl, rfl⟩, rfl⟩, ?_, s.incR_advances 1⟩
  · intro p hp
    cases p <;> first | rfl | simp at hp
  · exact ramKeepsBut_of_writes (v := hi s.pc) (w := lo s.pc) hw (by simp)
  · have h := holds_of_writes (s := s) (t := s.enterHandler e g) (v := hi s.pc) (w := lo s.pc) hw
      (push_addresses_differ s.sp) (by simp)
    exact ⟨by simp, h.1, h.2⟩

/-- A return from an interrupt pops PC and copies IFF2 to IFF1 (rules R522, R523). -/
theorem State.returnFromInterrupt_within (s : State) :
    Within { cost := 0, places := [.sp, .pc, .iff1], calls := s.wordCalls s.sp } s
      s.returnFromInterrupt := by
  refine ⟨rfl, ?_, .of_eq rfl _, ⟨rfl, rfl⟩, rfl⟩
  intro p hp
  cases p <;> first | rfl | simp at hp

/-! ### Fetching (30_encoding.md rules R150, R162) -/

/-- Reading an instruction changes PC and the decode state, which is Base at its end, and makes reads. -/
theorem fetchWith_frame : ∀ (d : Dec) (s : State),
    KeepsBut [.pc, .decode] s (fetchWith d s).2 ∧ (fetchWith d s).2.bus.ram = s.bus.ram ∧
      SameOwner s (fetchWith d s).2 ∧ (fetchWith d s).2.decode = .base
  | .done i, s => by
    refine ⟨fun p hp => ?_, rfl, ⟨rfl, rfl⟩, rfl⟩
    cases p <;> first | rfl | simp at hp
  | .unread i, s => by
    refine ⟨fun p hp => ?_, rfl, ⟨rfl, rfl⟩, rfl⟩
    cases p <;> first | rfl | simp at hp
  | .more st k, s => by
    obtain ⟨h1, h2, h3, h4⟩ := fetchWith_frame (k (s.memByte s.pc))
      { s.afterRead s.pc with decode := st, pc := s.pc + 1 }
    refine ⟨fun p hp => (h1 p hp).trans ?_, h2, h3, h4⟩
    cases p <;> first | rfl | simp at hp

/-- Fetching advances R by the M1 cycles of the instruction. -/
theorem fetch_advances (s : State) : AdvancesR (fetch s).1.m1Cycles s (fetch s).2 := by
  have h := (fetchWith_frame decStart s).1 .r (by simp)
  have e : (fetchWith decStart s).2.r = s.r := BitVec.eq_of_toNat_eq h
  have q := State.incR_advances (fetchWith decStart s).2 (fetchWith decStart s).1.m1Cycles
  rw [AdvancesR, e] at q
  exact q

end Sys2Proof.Machine
end

