-- ==== Sys2Proof/Laws/PerInstr.lean ====
section
/-! SUPPORT. A statement made of every instruction as syntax: a well-formed instruction is one to four bytes long and
fetches one or two of them as opcodes (30_encoding.md rules R160, R162). -/

namespace Sys2Proof.Laws

/-- The statement of the family. -/
def Length.Statement (i : Instr) : Prop :=
  i.wf = true → 1 ≤ i.length ∧ i.length ≤ 4 ∧ 1 ≤ i.m1Cycles ∧ i.m1Cycles ≤ 2

theorem m1Cycles_bounds (i : Instr) : 1 ≤ i.m1Cycles ∧ i.m1Cycles ≤ 2 := by
  unfold Instr.m1Cycles
  split
  · exact ⟨Nat.le_refl 1, by decide⟩
  · exact ⟨Nat.le_refl 1, by decide⟩
  · split
    · split
      · exact ⟨by decide, Nat.le_refl 2⟩
      · exact ⟨Nat.le_refl 1, by decide⟩
    · exact ⟨Nat.le_refl 1, by decide⟩

/-- An instruction that ignores an index prefix is one to three bytes long, and one more with it. -/
theorem length_prefixIgnored (x : Idx) (base : Instr) (h : base.ignoresPrefix = true) :
    1 ≤ (Instr.prefixIgnored x base).length ∧ (Instr.prefixIgnored x base).length ≤ 4 := by
  have e : (Instr.prefixIgnored x base).length = base.length + 1 := rfl
  have l : base.length ≤ 3 := by
    cases base <;> first
      | exact Bool.noConfusion h
      | exact Nat.le_of_ble_eq_true rfl
  omega

/-- What is left of the statement once the length is known. -/
theorem length_statement {i : Instr} (h : i.wf = true → 1 ≤ i.length ∧ i.length ≤ 4) : Length.Statement i :=
  fun w => ⟨(h w).1, (h w).2, m1Cycles_bounds i⟩

/-- The statement of an instruction whose length is a numeral. -/
theorem length_numeral {i : Instr} (h : Nat.ble 1 i.length = true) (h' : Nat.ble i.length 4 = true) :
    Length.Statement i :=
  length_statement fun _ => ⟨Nat.le_of_ble_eq_true h, Nat.le_of_ble_eq_true h'⟩

theorem Length.prefixThenIndex (x : Idx) : Length.Statement (.prefixThenIndex x) :=
  length_numeral rfl rfl
theorem Length.prefixThenEd (x : Idx) : Length.Statement (.prefixThenEd x) :=
  length_numeral rfl rfl
theorem Length.rlcMemIdx (x : Idx) (d : Byte) : Length.Statement (.rlcMemIdx x d) :=
  length_numeral rfl rfl
theorem Length.rlcMemIdxCopy (x : Idx) (d : Byte) (r : Reg8) : Length.Statement (.rlcMemIdxCopy x d r) :=
  length_numeral rfl rfl
theorem Length.rrcMemIdx (x : Idx) (d : Byte) : Length.Statement (.rrcMemIdx x d) :=
  length_numeral rfl rfl
theorem Length.rrcMemIdxCopy (x : Idx) (d : Byte) (r : Reg8) : Length.Statement (.rrcMemIdxCopy x d r) :=
  length_numeral rfl rfl
theorem Length.rlMemIdx (x : Idx) (d : Byte) : Length.Statement (.rlMemIdx x d) :=
  length_numeral rfl rfl
theorem Length.rlMemIdxCopy (x : Idx) (d : Byte) (r : Reg8) : Length.Statement (.rlMemIdxCopy x d r) :=
  length_numeral rfl rfl
theorem Length.rrMemIdx (x : Idx) (d : Byte) : Length.Statement (.rrMemIdx x d) :=
  length_numeral rfl rfl
theorem Length.rrMemIdxCopy (x : Idx) (d : Byte) (r : Reg8) : Length.Statement (.rrMemIdxCopy x d r) :=
  length_numeral rfl rfl
theorem Length.slaMemIdx (x : Idx) (d : Byte) : Length.Statement (.slaMemIdx x d) :=
  length_numeral rfl rfl
theorem Length.slaMemIdxCopy (x : Idx) (d : Byte) (r : Reg8) : Length.Statement (.slaMemIdxCopy x d r) :=
  length_numeral rfl rfl
theorem Length.sraMemIdx (x : Idx) (d : Byte) : Length.Statement (.sraMemIdx x d) :=
  length_numeral rfl rfl
theorem Length.sraMemIdxCopy (x : Idx) (d : Byte) (r : Reg8) : Length.Statement (.sraMemIdxCopy x d r) :=
  length_numeral rfl rfl
theorem Length.sllMemIdx (x : Idx) (d : Byte) : Length.Statement (.sllMemIdx x d) :=
  length_numeral rfl rfl
theorem Length.sllMemIdxCopy (x : Idx) (d : Byte) (r : Reg8) : Length.Statement (.sllMemIdxCopy x d r) :=
  length_numeral rfl rfl
theorem Length.srlMemIdx (x : Idx) (d : Byte) : Length.Statement (.srlMemIdx x d) :=
  length_numeral rfl rfl
theorem Length.srlMemIdxCopy (x : Idx) (d : Byte) (r : Reg8) : Length.Statement (.srlMemIdxCopy x d r) :=
  length_numeral rfl rfl
theorem Length.bitMemIdx (x : Idx) (d : Byte) (b : BitVec 3) (z : BitVec 3) : Length.Statement (.bitMemIdx x d b z) :=
  length_numeral rfl rfl
theorem Length.resMemIdx (x : Idx) (d : Byte) (b : BitVec 3) : Length.Statement (.resMemIdx x d b) :=
  length_numeral rfl rfl
theorem Length.resMemIdxCopy (x : Idx) (d : Byte) (b : BitVec 3) (r : Reg8) : Length.Statement (.resMemIdxCopy x d b r) :=
  length_numeral rfl rfl
theorem Length.setMemIdx (x : Idx) (d : Byte) (b : BitVec 3) : Length.Statement (.setMemIdx x d b) :=
  length_numeral rfl rfl
theorem Length.setMemIdxCopy (x : Idx) (d : Byte) (b : BitVec 3) (r : Reg8) : Length.Statement (.setMemIdxCopy x d b r) :=
  length_numeral rfl rfl
theorem Length.ldIdxNn (x : Idx) (nn : Word) : Length.Statement (.ldIdxNn x nn) :=
  length_numeral rfl rfl
theorem Length.ldMemNnIdx (x : Idx) (nn : Word) : Length.Statement (.ldMemNnIdx x nn) :=
  length_numeral rfl rfl
theorem Length.ldIdxMemNn (x : Idx) (nn : Word) : Length.Statement (.ldIdxMemNn x nn) :=
  length_numeral rfl rfl
theorem Length.incIdx (x : Idx) : Length.Statement (.incIdx x) :=
  length_numeral rfl rfl
theorem Length.decIdx (x : Idx) : Length.Statement (.decIdx x) :=
  length_numeral rfl rfl
theorem Length.addIdxPp (x : Idx) (pp : IdxPair) : Length.Statement (.addIdxPp x pp) :=
  length_numeral rfl rfl
theorem Length.incMemIdx (x : Idx) (d : Byte) : Length.Statement (.incMemIdx x d) :=
  length_numeral rfl rfl
theorem Length.decMemIdx (x : Idx) (d : Byte) : Length.Statement (.decMemIdx x d) :=
  length_numeral rfl rfl
theorem Length.ldMemIdxN (x : Idx) (d : Byte) (n : Byte) : Length.Statement (.ldMemIdxN x d n) :=
  length_numeral rfl rfl
theorem Length.incHalf (x : Idx) (half : Half) : Length.Statement (.incHalf x half) :=
  length_numeral rfl rfl
theorem Length.decHalf (x : Idx) (half : Half) : Length.Statement (.decHalf x half) :=
  length_numeral rfl rfl
theorem Length.ldHalfN (x : Idx) (half : Half) (n : Byte) : Length.Statement (.ldHalfN x half n) :=
  length_numeral rfl rfl
theorem Length.haltIgnored (x : Idx) : Length.Statement (.haltIgnored x) :=
  length_numeral rfl rfl
theorem Length.ldRMemIdx (x : Idx) (r : Reg8) (d : Byte) : Length.Statement (.ldRMemIdx x r d) :=
  length_numeral rfl rfl
theorem Length.ldMemIdxR (x : Idx) (d : Byte) (r : Reg8) : Length.Statement (.ldMemIdxR x d r) :=
  length_numeral rfl rfl
theorem Length.ldHalfR (x : Idx) (half : Half) (r : HalfReg) : Length.Statement (.ldHalfR x half r) :=
  length_numeral rfl rfl
theorem Length.ldRHalf (x : Idx) (r : Reg8) (half : Half) : Length.Statement (.ldRHalf x r half) :=
  length_numeral rfl rfl
theorem Length.addAMemIdx (x : Idx) (d : Byte) : Length.Statement (.addAMemIdx x d) :=
  length_numeral rfl rfl
theorem Length.addAHalf (x : Idx) (half : Half) : Length.Statement (.addAHalf x half) :=
  length_numeral rfl rfl
theorem Length.adcAMemIdx (x : Idx) (d : Byte) : Length.Statement (.adcAMemIdx x d) :=
  length_numeral rfl rfl
theorem Length.adcAHalf (x : Idx) (half : Half) : Length.Statement (.adcAHalf x half) :=
  length_numeral rfl rfl
theorem Length.subMemIdx (x : Idx) (d : Byte) : Length.Statement (.subMemIdx x d) :=
  length_numeral rfl rfl
theorem Length.subHalf (x : Idx) (half : Half) : Length.Statement (.subHalf x half) :=
  length_numeral rfl rfl
theorem Length.sbcAMemIdx (x : Idx) (d : Byte) : Length.Statement (.sbcAMemIdx x d) :=
  length_numeral rfl rfl
theorem Length.sbcAHalf (x : Idx) (half : Half) : Length.Statement (.sbcAHalf x half) :=
  length_numeral rfl rfl
theorem Length.andMemIdx (x : Idx) (d : Byte) : Length.Statement (.andMemIdx x d) :=
  length_numeral rfl rfl
theorem Length.andHalf (x : Idx) (half : Half) : Length.Statement (.andHalf x half) :=
  length_numeral rfl rfl
theorem Length.xorMemIdx (x : Idx) (d : Byte) : Length.Statement (.xorMemIdx x d) :=
  length_numeral rfl rfl
theorem Length.xorHalf (x : Idx) (half : Half) : Length.Statement (.xorHalf x half) :=
  length_numeral rfl rfl
theorem Length.orMemIdx (x : Idx) (d : Byte) : Length.Statement (.orMemIdx x d) :=
  length_numeral rfl rfl
theorem Length.orHalf (x : Idx) (half : Half) : Length.Statement (.orHalf x half) :=
  length_numeral rfl rfl
theorem Length.cpMemIdx (x : Idx) (d : Byte) : Length.Statement (.cpMemIdx x d) :=
  length_numeral rfl rfl
theorem Length.cpHalf (x : Idx) (half : Half) : Length.Statement (.cpHalf x half) :=
  length_numeral rfl rfl
theorem Length.pushIdx (x : Idx) : Length.Statement (.pushIdx x) :=
  length_numeral rfl rfl
theorem Length.popIdx (x : Idx) : Length.Statement (.popIdx x) :=
  length_numeral rfl rfl
theorem Length.exSpIdx (x : Idx) : Length.Statement (.exSpIdx x) :=
  length_numeral rfl rfl
theorem Length.jpIdx (x : Idx) : Length.Statement (.jpIdx x) :=
  length_numeral rfl rfl
theorem Length.ldSpIdx (x : Idx) : Length.Statement (.ldSpIdx x) :=
  length_numeral rfl rfl
theorem Length.prefixIgnored (x : Idx) (base : Instr) : Length.Statement (.prefixIgnored x base) :=
  length_statement (length_prefixIgnored x base)
theorem Length.rlcMemHl : Length.Statement .rlcMemHl :=
  length_numeral rfl rfl
theorem Length.rlcR (r : Reg8) : Length.Statement (.rlcR r) :=
  length_numeral rfl rfl
theorem Length.rrcMemHl : Length.Statement .rrcMemHl :=
  length_numeral rfl rfl
theorem Length.rrcR (r : Reg8) : Length.Statement (.rrcR r) :=
  length_numeral rfl rfl
theorem Length.rlMemHl : Length.Statement .rlMemHl :=
  length_numeral rfl rfl
theorem Length.rlR (r : Reg8) : Length.Statement (.rlR r) :=
  length_numeral rfl rfl
theorem Length.rrMemHl : Length.Statement .rrMemHl :=
  length_numeral rfl rfl
theorem Length.rrR (r : Reg8) : Length.Statement (.rrR r) :=
  length_numeral rfl rfl
theorem Length.slaMemHl : Length.Statement .slaMemHl :=
  length_numeral rfl rfl
theorem Length.slaR (r : Reg8) : Length.Statement (.slaR r) :=
  length_numeral rfl rfl
theorem Length.sraMemHl : Length.Statement .sraMemHl :=
  length_numeral rfl rfl
theorem Length.sraR (r : Reg8) : Length.Statement (.sraR r) :=
  length_numeral rfl rfl
theorem Length.sllMemHl : Length.Statement .sllMemHl :=
  length_numeral rfl rfl
theorem Length.sllR (r : Reg8) : Length.Statement (.sllR r) :=
  length_numeral rfl rfl
theorem Length.srlMemHl : Length.Statement .srlMemHl :=
  length_numeral rfl rfl
theorem Length.srlR (r : Reg8) : Length.Statement (.srlR r) :=
  length_numeral rfl rfl
theorem Length.bitMemHl (b : BitVec 3) : Length.Statement (.bitMemHl b) :=
  length_numeral rfl rfl
theorem Length.bitR (b : BitVec 3) (r : Reg8) : Length.Statement (.bitR b r) :=
  length_numeral rfl rfl
theorem Length.resMemHl (b : BitVec 3) : Length.Statement (.resMemHl b) :=
  length_numeral rfl rfl
theorem Length.resR (b : BitVec 3) (r : Reg8) : Length.Statement (.resR b r) :=
  length_numeral rfl rfl
theorem Length.setMemHl (b : BitVec 3) : Length.Statement (.setMemHl b) :=
  length_numeral rfl rfl
theorem Length.setR (b : BitVec 3) (r : Reg8) : Length.Statement (.setR b r) :=
  length_numeral rfl rfl
theorem Length.inFC : Length.Statement .inFC :=
  length_numeral rfl rfl
theorem Length.inRC (r : Reg8) : Length.Statement (.inRC r) :=
  length_numeral rfl rfl
theorem Length.outCZero : Length.Statement .outCZero :=
  length_numeral rfl rfl
theorem Length.outCR (r : Reg8) : Length.Statement (.outCR r) :=
  length_numeral rfl rfl
theorem Length.sbcHlSs (ss : Pair) : Length.Statement (.sbcHlSs ss) :=
  length_numeral rfl rfl
theorem Length.adcHlSs (ss : Pair) : Length.Statement (.adcHlSs ss) :=
  length_numeral rfl rfl
theorem Length.ldMemNnDd (dd : Pair) (nn : Word) : Length.Statement (.ldMemNnDd dd nn) :=
  length_numeral rfl rfl
theorem Length.ldDdMemNn (dd : Pair) (nn : Word) : Length.Statement (.ldDdMemNn dd nn) :=
  length_numeral rfl rfl
theorem Length.neg (y : BitVec 3) : Length.Statement (.neg y) :=
  length_numeral rfl rfl
theorem Length.reti : Length.Statement .reti :=
  length_numeral rfl rfl
theorem Length.retn (y : BitVec 3) : Length.Statement (.retn y) :=
  length_numeral rfl rfl
theorem Length.im0 (y : BitVec 3) : Length.Statement (.im0 y) :=
  length_numeral rfl rfl
theorem Length.im1 (y : BitVec 1) : Length.Statement (.im1 y) :=
  length_numeral rfl rfl
theorem Length.im2 (y : BitVec 1) : Length.Statement (.im2 y) :=
  length_numeral rfl rfl
theorem Length.ldIA : Length.Statement .ldIA :=
  length_numeral rfl rfl
theorem Length.ldRA : Length.Statement .ldRA :=
  length_numeral rfl rfl
theorem Length.ldAI : Length.Statement .ldAI :=
  length_numeral rfl rfl
theorem Length.ldAR : Length.Statement .ldAR :=
  length_numeral rfl rfl
theorem Length.rrd : Length.Statement .rrd :=
  length_numeral rfl rfl
theorem Length.rld : Length.Statement .rld :=
  length_numeral rfl rfl
theorem Length.ldi : Length.Statement .ldi :=
  length_numeral rfl rfl
theorem Length.ldir : Length.Statement .ldir :=
  length_numeral rfl rfl
theorem Length.ldd : Length.Statement .ldd :=
  length_numeral rfl rfl
theorem Length.lddr : Length.Statement .lddr :=
  length_numeral rfl rfl
theorem Length.cpi : Length.Statement .cpi :=
  length_numeral rfl rfl
theorem Length.cpir : Length.Statement .cpir :=
  length_numeral rfl rfl
theorem Length.cpd : Length.Statement .cpd :=
  length_numeral rfl rfl
theorem Length.cpdr : Length.Statement .cpdr :=
  length_numeral rfl rfl
theorem Length.ini : Length.Statement .ini :=
  length_numeral rfl rfl
theorem Length.inir : Length.Statement .inir :=
  length_numeral rfl rfl
theorem Length.ind : Length.Statement .ind :=
  length_numeral rfl rfl
theorem Length.indr : Length.Statement .indr :=
  length_numeral rfl rfl
theorem Length.outi : Length.Statement .outi :=
  length_numeral rfl rfl
theorem Length.otir : Length.Statement .otir :=
  length_numeral rfl rfl
theorem Length.outd : Length.Statement .outd :=
  length_numeral rfl rfl
theorem Length.otdr : Length.Statement .otdr :=
  length_numeral rfl rfl
theorem Length.nopEd (op : Byte) : Length.Statement (.nopEd op) :=
  length_numeral rfl rfl
theorem Length.nop : Length.Statement .nop :=
  length_numeral rfl rfl
theorem Length.halt : Length.Statement .halt :=
  length_numeral rfl rfl
theorem Length.ldRMemHl (r : Reg8) : Length.Statement (.ldRMemHl r) :=
  length_numeral rfl rfl
theorem Length.ldMemHlR (r : Reg8) : Length.Statement (.ldMemHlR r) :=
  length_numeral rfl rfl
theorem Length.ldRR (r r' : Reg8) : Length.Statement (.ldRR r r') :=
  length_numeral rfl rfl
theorem Length.ldMemHlN (n : Byte) : Length.Statement (.ldMemHlN n) :=
  length_numeral rfl rfl
theorem Length.ldRN (r : Reg8) (n : Byte) : Length.Statement (.ldRN r n) :=
  length_numeral rfl rfl
theorem Length.ldAMemBc : Length.Statement .ldAMemBc :=
  length_numeral rfl rfl
theorem Length.ldAMemDe : Length.Statement .ldAMemDe :=
  length_numeral rfl rfl
theorem Length.ldAMemNn (nn : Word) : Length.Statement (.ldAMemNn nn) :=
  length_numeral rfl rfl
theorem Length.ldMemBcA : Length.Statement .ldMemBcA :=
  length_numeral rfl rfl
theorem Length.ldMemDeA : Length.Statement .ldMemDeA :=
  length_numeral rfl rfl
theorem Length.ldMemNnA (nn : Word) : Length.Statement (.ldMemNnA nn) :=
  length_numeral rfl rfl
theorem Length.ldHlMemNn (nn : Word) : Length.Statement (.ldHlMemNn nn) :=
  length_numeral rfl rfl
theorem Length.ldMemNnHl (nn : Word) : Length.Statement (.ldMemNnHl nn) :=
  length_numeral rfl rfl
theorem Length.ldDdNn (dd : Pair) (nn : Word) : Length.Statement (.ldDdNn dd nn) :=
  length_numeral rfl rfl
theorem Length.ldSpHl : Length.Statement .ldSpHl :=
  length_numeral rfl rfl
theorem Length.pushQq (qq : StackPair) : Length.Statement (.pushQq qq) :=
  length_numeral rfl rfl
theorem Length.popQq (qq : StackPair) : Length.Statement (.popQq qq) :=
  length_numeral rfl rfl
theorem Length.exDeHl : Length.Statement .exDeHl :=
  length_numeral rfl rfl
theorem Length.exAfAf : Length.Statement .exAfAf :=
  length_numeral rfl rfl
theorem Length.exx : Length.Statement .exx :=
  length_numeral rfl rfl
theorem Length.exSpHl : Length.Statement .exSpHl :=
  length_numeral rfl rfl
theorem Length.addAMemHl : Length.Statement .addAMemHl :=
  length_numeral rfl rfl
theorem Length.addAR (r : Reg8) : Length.Statement (.addAR r) :=
  length_numeral rfl rfl
theorem Length.addAN (n : Byte) : Length.Statement (.addAN n) :=
  length_numeral rfl rfl
theorem Length.adcAMemHl : Length.Statement .adcAMemHl :=
  length_numeral rfl rfl
theorem Length.adcAR (r : Reg8) : Length.Statement (.adcAR r) :=
  length_numeral rfl rfl
theorem Length.adcAN (n : Byte) : Length.Statement (.adcAN n) :=
  length_numeral rfl rfl
theorem Length.subMemHl : Length.Statement .subMemHl :=
  length_numeral rfl rfl
theorem Length.subR (r : Reg8) : Length.Statement (.subR r) :=
  length_numeral rfl rfl
theorem Length.subN (n : Byte) : Length.Statement (.subN n) :=
  length_numeral rfl rfl
theorem Length.sbcAMemHl : Length.Statement .sbcAMemHl :=
  length_numeral rfl rfl
theorem Length.sbcAR (r : Reg8) : Length.Statement (.sbcAR r) :=
  length_numeral rfl rfl
theorem Length.sbcAN (n : Byte) : Length.Statement (.sbcAN n) :=
  length_numeral rfl rfl
theorem Length.andMemHl : Length.Statement .andMemHl :=
  length_numeral rfl rfl
theorem Length.andR (r : Reg8) : Length.Statement (.andR r) :=
  length_numeral rfl rfl
theorem Length.andN (n : Byte) : Length.Statement (.andN n) :=
  length_numeral rfl rfl
theorem Length.xorMemHl : Length.Statement .xorMemHl :=
  length_numeral rfl rfl
theorem Length.xorR (r : Reg8) : Length.Statement (.xorR r) :=
  length_numeral rfl rfl
theorem Length.xorN (n : Byte) : Length.Statement (.xorN n) :=
  length_numeral rfl rfl
theorem Length.orMemHl : Length.Statement .orMemHl :=
  length_numeral rfl rfl
theorem Length.orR (r : Reg8) : Length.Statement (.orR r) :=
  length_numeral rfl rfl
theorem Length.orN (n : Byte) : Length.Statement (.orN n) :=
  length_numeral rfl rfl
theorem Length.cpMemHl : Length.Statement .cpMemHl :=
  length_numeral rfl rfl
theorem Length.cpR (r : Reg8) : Length.Statement (.cpR r) :=
  length_numeral rfl rfl
theorem Length.cpN (n : Byte) : Length.Statement (.cpN n) :=
  length_numeral rfl rfl
theorem Length.incMemHl : Length.Statement .incMemHl :=
  length_numeral rfl rfl
theorem Length.incR (r : Reg8) : Length.Statement (.incR r) :=
  length_numeral rfl rfl
theorem Length.decMemHl : Length.Statement .decMemHl :=
  length_numeral rfl rfl
theorem Length.decR (r : Reg8) : Length.Statement (.decR r) :=
  length_numeral rfl rfl
theorem Length.daa : Length.Statement .daa :=
  length_numeral rfl rfl
theorem Length.cpl : Length.Statement .cpl :=
  length_numeral rfl rfl
theorem Length.ccf : Length.Statement .ccf :=
  length_numeral rfl rfl
theorem Length.scf : Length.Statement .scf :=
  length_numeral rfl rfl
theorem Length.di : Length.Statement .di :=
  length_numeral rfl rfl
theorem Length.ei : Length.Statement .ei :=
  length_numeral rfl rfl
theorem Length.addHlSs (ss : Pair) : Length.Statement (.addHlSs ss) :=
  length_numeral rfl rfl
theorem Length.incSs (ss : Pair) : Length.Statement (.incSs ss) :=
  length_numeral rfl rfl
theorem Length.decSs (ss : Pair) : Length.Statement (.decSs ss) :=
  length_numeral rfl rfl
theorem Length.rlca : Length.Statement .rlca :=
  length_numeral rfl rfl
theorem Length.rrca : Length.Statement .rrca :=
  length_numeral rfl rfl
theorem Length.rla : Length.Statement .rla :=
  length_numeral rfl rfl
theorem Length.rra : Length.Statement .rra :=
  length_numeral rfl rfl
theorem Length.jpNn (nn : Word) : Length.Statement (.jpNn nn) :=
  length_numeral rfl rfl
theorem Length.jpCcNn (cc : Cond) (nn : Word) : Length.Statement (.jpCcNn cc nn) :=
  length_numeral rfl rfl
theorem Length.jrE (e : Byte) : Length.Statement (.jrE e) :=
  length_numeral rfl rfl
theorem Length.djnzE (e : Byte) : Length.Statement (.djnzE e) :=
  length_numeral rfl rfl
theorem Length.jrCcE (cc : JrCond) (e : Byte) : Length.Statement (.jrCcE cc e) :=
  length_numeral rfl rfl
theorem Length.jpHl : Length.Statement .jpHl :=
  length_numeral rfl rfl
theorem Length.callNn (nn : Word) : Length.Statement (.callNn nn) :=
  length_numeral rfl rfl
theorem Length.callCcNn (cc : Cond) (nn : Word) : Length.Statement (.callCcNn cc nn) :=
  length_numeral rfl rfl
theorem Length.ret : Length.Statement .ret :=
  length_numeral rfl rfl
theorem Length.retCc (cc : Cond) : Length.Statement (.retCc cc) :=
  length_numeral rfl rfl
theorem Length.rstP (p : BitVec 3) : Length.Statement (.rstP p) :=
  length_numeral rfl rfl
theorem Length.inAN (n : Byte) : Length.Statement (.inAN n) :=
  length_numeral rfl rfl
theorem Length.outNA (n : Byte) : Length.Statement (.outNA n) :=
  length_numeral rfl rfl

end Sys2Proof.Laws
end

