-- ==== Sys2Proof/Laws/Run.lean ====
section
/-! SUPPORT. Runs and their ends (70_reset_and_hazards.md rule R718): which boundary is the end, and that nothing but
halted cycles follows an end at a quiescent boundary. -/

namespace Sys2Proof.Machine

theorem Session.run_append (k : Session) (xs ys : List (List DriverAction)) :
    k.run (xs ++ ys) = (k.run xs).run ys := by
  induction xs generalizing k with
  | nil => rfl
  | cons x xs ih => exact ih _

/-- One boundary to the next: the interactions there, then one step. -/
theorem HostRun.boundary_succ (h : HostRun) (j : Nat) (hj : j < h.inputs.length) :
    h.boundary (j + 1) = (h.inputs[j].foldl Session.act (h.boundary j)).execute := by
  rw [HostRun.boundary, List.take_succ_eq_append_getElem hj, Session.run_append]
  rfl

/-- The end is the FIRST boundary that answers to the rule. -/
theorem HostRun.endBoundary_eq_some (h : HostRun) (e : EndRule) (j : Nat) :
    h.endBoundary e = some j ↔
      j ≤ h.inputs.length ∧ h.isEnd e j = true ∧ ∀ i, i < j → h.isEnd e i = false := by
  simp [HostRun.endBoundary, List.find?_range_eq_some]
  tauto

/-- A state with the refused mark is never an end. -/
theorem HostRun.end_not_refused (h : HostRun) (e : EndRule) (j : Nat) (he : h.endBoundary e = some j) :
    (h.boundary j).refused = false := by
  have hj := ((h.endBoundary_eq_some e j).1 he).2.1
  cases e <;> simp only [HostRun.isEnd, Session.endedAfter, Session.endedQuiescent, Bool.and_eq_true,
    Bool.not_eq_true'] at hj <;> exact hj.2

/-- End (a) is after exactly the steps given. -/
theorem HostRun.end_after (h : HostRun) (n j : Nat) (he : h.endBoundary (.after n) = some j) : j = n := by
  have hj := ((h.endBoundary_eq_some _ j).1 he).2.1
  simp only [HostRun.isEnd, Session.endedAfter, Bool.and_eq_true, beq_iff_eq] at hj
  exact hj.1

/-- End (b) is at a quiescent state, declared to get no NMI. -/
theorem HostRun.end_quiescent (h : HostRun) (j : Nat) (he : h.endBoundary .quiescent = some j) :
    (h.boundary j).core.quiescent = true ∧ h.declaredAt j = true := by
  have hj := ((h.endBoundary_eq_some _ j).1 he).2.1
  simp only [HostRun.isEnd, Session.endedQuiescent, Bool.and_eq_true] at hj
  exact hj.1

/-- At a quiescent state a step is a halted cycle, and the state stays quiescent. -/
theorem quiescent_step (s : State) (hs : s.quiescent = true) :
    step s = .next (haltedCycle s) ∧ (haltedCycle s).quiescent = true := by
  simp only [State.quiescent, Bool.and_eq_true, Bool.not_eq_true'] at hs
  obtain ⟨⟨h1, h2⟩, h3⟩ := hs
  refine ⟨by simp [step, State.takesNmi, State.takesInt, h1, h2, h3], ?_⟩
  simp [State.quiescent, haltedCycle, h1, h2, h3]

/-- No interaction inside a run but a latched NMI ends quiescence, and none sets the mark. -/
theorem quiescent_act (k : Session) (x : DriverAction) (hr : x.staysInRun = true) (hn : x.latchesNone = true)
    (hk : k.core.quiescent = true) :
    (k.act x).core.quiescent = true ∧ (k.act x).refused = k.refused := by
  cases x <;> simp_all [DriverAction.staysInRun, DriverAction.latchesNone, Session.act, DriverAction.apply,
    State.quiescent]

theorem quiescent_acts (xs : List DriverAction) (k : Session) (hr : xs.all DriverAction.staysInRun = true)
    (hn : xs.all DriverAction.latchesNone = true) (hk : k.core.quiescent = true) :
    (xs.foldl Session.act k).core.quiescent = true ∧ (xs.foldl Session.act k).refused = k.refused := by
  induction xs generalizing k with
  | nil => exact ⟨hk, rfl⟩
  | cons x xs ih =>
    rw [List.all_cons, Bool.and_eq_true] at hr hn
    obtain ⟨h1, h2⟩ := quiescent_act k x hr.1 hn.1 hk
    obtain ⟨h3, h4⟩ := ih (k.act x) hr.2 hn.2 h1
    exact ⟨h3, h4.trans h2⟩

theorem Session.execute_next (k : Session) (t : State) (h : step k.core = .next t) :
    k.execute = { k with core := t } := by rw [Session.execute, h]

/-- A declaration holds at every later boundary, and the host keeps it there. -/
theorem HostRun.declared_stays (h : HostRun) (hw : h.wf = true) (j : Nat) (hj : j < h.inputs.length)
    (hd : h.declaredAt j = true) :
    h.declaredAt (j + 1) = true ∧ h.inputs[j].all DriverAction.latchesNone = true := by
  obtain ⟨start, inputs, noNmiFrom⟩ := h
  cases noNmiFrom with
  | none => cases hd
  | some m =>
    have hm : m ≤ j := of_decide_eq_true hd
    have hj : j < inputs.length := hj
    simp only [HostRun.wf, Bool.and_eq_true] at hw
    exact ⟨decide_eq_true (Nat.le_succ_of_le hm), List.all_eq_true.1 hw.2 _
      (List.mem_drop_iff_getElem.2 ⟨j - m, by omega, by simp [Nat.add_sub_cancel' hm]⟩)⟩

/-- After a boundary that ends a run by quiescence the next step is a halted cycle, and the next boundary would end
it too. -/
theorem HostRun.quiescent_next (h : HostRun) (hw : h.wf = true) (j : Nat) (hj : j < h.inputs.length)
    (he : h.isEnd .quiescent j = true) :
    (h.boundary (j + 1)).core = haltedCycle (h.inputs[j].foldl Session.act (h.boundary j)).core ∧
      h.isEnd .quiescent (j + 1) = true := by
  simp only [HostRun.isEnd, Session.endedQuiescent, Bool.and_eq_true, Bool.not_eq_true'] at he ⊢
  obtain ⟨⟨hq, hd⟩, hr⟩ := he
  obtain ⟨hd', hn⟩ := h.declared_stays hw j hj hd
  simp only [HostRun.wf, Bool.and_eq_true] at hw
  obtain ⟨h1, h2⟩ := quiescent_acts _ _ (List.all_eq_true.1 hw.1.2 _ (List.getElem_mem hj)) hn hq
  obtain ⟨h3, h4⟩ := quiescent_step _ h1
  rw [h.boundary_succ j hj, Session.execute_next _ _ h3]
  exact ⟨rfl, ⟨h4, hd'⟩, h2.trans hr⟩

/-- So nothing but halted cycles follows an end at a quiescent boundary: every later boundary is quiescent, and no
step is refused. -/
theorem HostRun.quiescent_stays (h : HostRun) (hw : h.wf = true) (j d : Nat)
    (he : h.endBoundary .quiescent = some j) (hd : j + d ≤ h.inputs.length) :
    h.isEnd .quiescent (j + d) = true := by
  induction d with
  | zero => exact ((h.endBoundary_eq_some _ j).1 he).2.1
  | succ d ih => exact (h.quiescent_next hw (j + d) (by omega) (ih (by omega))).2

end Sys2Proof.Machine
end

