-- ==== Sys2Proof/Tests/Slice0.lean ====
section
/-! SUPPORT. Tests: ill-formed terms, words written out from the encodings of spec/, single steps whose results are those of
spec/95_test_vectors.md part 2, and for every obligation with hypotheses a witness that meets them. -/

namespace Sys2Proof.Tests

open Sys2Proof Sys2Proof.Machine

/-! ### Well-formedness: every check refuses a term -/

/-- 48_jump_call.md rule R523: ED 4D is RETI. -/
theorem test_wf_retn : (Instr.retn 1).wf = false ∧ (Instr.retn 0).wf = true := by decide
/-- 44_general_cpu.md rule R381: IM 0 has y in 0, 1, 4, 5. -/
theorem test_wf_im0 : (Instr.im0 2).wf = false ∧ (Instr.im0 7).wf = false ∧ (Instr.im0 1).wf = true := by decide
/-- Rule R386: a defined ED opcode is no no-operation. -/
theorem test_wf_nopEd : (Instr.nopEd 0x44).wf = false ∧ (Instr.nopEd 0xA0).wf = false ∧
    (Instr.nopEd 0x77).wf = true := by decide
/-- 40_load8.md rule R214: H under an index prefix is a half of it. -/
theorem test_wf_ldRHalf : (Instr.ldRHalf .ix .h .low).wf = false ∧ (Instr.ldRHalf .ix .b .low).wf = true := by
  decide
/-- 30_encoding.md rule R159: the prefix changes LD H,n; it is ignored before LD A,n; HALT has a row of its own. -/
theorem test_wf_prefixIgnored : (Instr.prefixIgnored .ix (.ldRN .h 0)).wf = false ∧
    (Instr.prefixIgnored .iy .halt).wf = false ∧ (Instr.prefixIgnored .iy .ldi).wf = false ∧
    (Instr.prefixIgnored .iy (.ldRN .a 0)).wf = true := by decide
/-- The list of rule R386 is what the ED decoder has no other instruction for. -/
theorem test_edUndefined_is_the_rest : ((List.range 16).all fun a => (List.range 16).all fun b =>
    match decode [0xED, BitVec.ofNat 8 (16 * a + b), 0x00, 0x00] with
    | .ok (.nopEd op, _) => edUndefined op && op == BitVec.ofNat 8 (16 * a + b)
    | .ok _ => !edUndefined (BitVec.ofNat 8 (16 * a + b))
    | .error _ => false) = true := by decide

/-! ### Decoding and encoding -/

/-- The word decodes to the instruction, which is well formed and encodes to the word's bytes. -/
def wordsStandFor (rows : List (Nat × Nat × Instr)) : Bool :=
  rows.all fun (nbits, w, i) => decodeTableWord nbits w == some i && i.wf && encode i == bytesOf (nbits / 8) w

/-- The rows RLC__IX+d to SET_b__IX+d__r of spec/opcode_table.json, operand bits filled in. -/
theorem test_words_index_cb : wordsStandFor [
    (32, 0x0605CBFD, .rlcMemIdx .iy 0x05),
    (32, 0x00FECBDD, .rlcMemIdxCopy .ix 0xFE .b),
    (32, 0x0E7FCBDD, .rrcMemIdx .ix 0x7F),
    (32, 0x0980CBFD, .rrcMemIdxCopy .iy 0x80 .c),
    (32, 0x1605CBFD, .rlMemIdx .iy 0x05),
    (32, 0x12FECBDD, .rlMemIdxCopy .ix 0xFE .d),
    (32, 0x1E7FCBDD, .rrMemIdx .ix 0x7F),
    (32, 0x1B80CBFD, .rrMemIdxCopy .iy 0x80 .e),
    (32, 0x2605CBFD, .slaMemIdx .iy 0x05),
    (32, 0x24FECBDD, .slaMemIdxCopy .ix 0xFE .h),
    (32, 0x2E7FCBDD, .sraMemIdx .ix 0x7F),
    (32, 0x2D80CBFD, .sraMemIdxCopy .iy 0x80 .l),
    (32, 0x3605CBFD, .sllMemIdx .iy 0x05),
    (32, 0x37FECBDD, .sllMemIdxCopy .ix 0xFE .a),
    (32, 0x3E7FCBDD, .srlMemIdx .ix 0x7F),
    (32, 0x3880CBFD, .srlMemIdxCopy .iy 0x80 .b),
    (32, 0x6A05CBFD, .bitMemIdx .iy 0x05 5 2),
    (32, 0xBEFECBDD, .resMemIdx .ix 0xFE 7),
    (32, 0x897FCBDD, .resMemIdxCopy .ix 0x7F 1 .c),
    (32, 0xF680CBFD, .setMemIdx .iy 0x80 6),
    (32, 0xEA05CBFD, .setMemIdxCopy .iy 0x05 5 .d)] = true := by decide

/-- The rows LD_IX_nn to LD_r_r___index_halves__r____IXH_IXL of spec/opcode_table.json, operand bits filled in. -/
theorem test_words_index_load_and_halves : wordsStandFor [
    (32, 0x123421DD, .ldIdxNn .ix 0x1234),
    (32, 0xFEDC22DD, .ldMemNnIdx .ix 0xFEDC),
    (32, 0x90A02AFD, .ldIdxMemNn .iy 0x90A0),
    (16, 0x23FD, .incIdx .iy),
    (16, 0x2BDD, .decIdx .ix),
    (16, 0x29DD, .addIdxPp .ix .self),
    (24, 0xFE34FD, .incMemIdx .iy 0xFE),
    (24, 0x7F35FD, .decMemIdx .iy 0x7F),
    (32, 0x428036DD, .ldMemIdxN .ix 0x80 0x42),
    (16, 0x24DD, .incHalf .ix .high),
    (16, 0x2DFD, .decHalf .iy .low),
    (24, 0x9A26FD, .ldHalfN .iy .high 0x9A),
    (16, 0x76DD, .haltIgnored .ix),
    (24, 0x055EDD, .ldRMemIdx .ix .e 0x05),
    (24, 0xFE74FD, .ldMemIdxR .iy 0xFE .h),
    (16, 0x6DFD, .ldHalfR .iy .low .low),
    (16, 0x7CDD, .ldRHalf .ix .a .high)] = true := by decide

/-- The rows ADD_A__IX+d to prefix_ignored__DD_FD_before_any_other_opcode of spec/opcode_table.json, operand bits filled in. -/
theorem test_words_index_arithmetic : wordsStandFor [
    (24, 0x7F86DD, .addAMemIdx .ix 0x7F),
    (16, 0x85FD, .addAHalf .iy .low),
    (24, 0x808EFD, .adcAMemIdx .iy 0x80),
    (16, 0x8CDD, .adcAHalf .ix .high),
    (24, 0x0596DD, .subMemIdx .ix 0x05),
    (16, 0x95FD, .subHalf .iy .low),
    (24, 0xFE9EFD, .sbcAMemIdx .iy 0xFE),
    (16, 0x9CDD, .sbcAHalf .ix .high),
    (24, 0x7FA6DD, .andMemIdx .ix 0x7F),
    (16, 0xA5FD, .andHalf .iy .low),
    (24, 0x80AEFD, .xorMemIdx .iy 0x80),
    (16, 0xACDD, .xorHalf .ix .high),
    (24, 0x05B6DD, .orMemIdx .ix 0x05),
    (16, 0xB5FD, .orHalf .iy .low),
    (24, 0xFEBEFD, .cpMemIdx .iy 0xFE),
    (16, 0xBCDD, .cpHalf .ix .high),
    (16, 0xE5DD, .pushIdx .ix),
    (16, 0xE1FD, .popIdx .iy),
    (16, 0xE3FD, .exSpIdx .iy),
    (16, 0xE9DD, .jpIdx .ix),
    (16, 0xF9DD, .ldSpIdx .ix),
    (24, 0x423EFD, .prefixIgnored .iy (.ldRN .a 0x42))] = true := by decide

/-- The rows RLC__HL to SET_b_r of spec/opcode_table.json, operand bits filled in. -/
theorem test_words_cb : wordsStandFor [
    (16, 0x06CB, .rlcMemHl),
    (16, 0x00CB, .rlcR .b),
    (16, 0x0ECB, .rrcMemHl),
    (16, 0x09CB, .rrcR .c),
    (16, 0x16CB, .rlMemHl),
    (16, 0x12CB, .rlR .d),
    (16, 0x1ECB, .rrMemHl),
    (16, 0x1BCB, .rrR .e),
    (16, 0x26CB, .slaMemHl),
    (16, 0x24CB, .slaR .h),
    (16, 0x2ECB, .sraMemHl),
    (16, 0x2DCB, .sraR .l),
    (16, 0x36CB, .sllMemHl),
    (16, 0x37CB, .sllR .a),
    (16, 0x3ECB, .srlMemHl),
    (16, 0x38CB, .srlR .b),
    (16, 0x56CB, .bitMemHl 2),
    (16, 0x79CB, .bitR 7 .c),
    (16, 0x8ECB, .resMemHl 1),
    (16, 0xB2CB, .resR 6 .d),
    (16, 0xEECB, .setMemHl 5),
    (16, 0xD3CB, .setR 2 .e)] = true := by decide

/-- The rows IN_F__C to RLD of spec/opcode_table.json, operand bits filled in. -/
theorem test_words_ed : wordsStandFor [
    (16, 0x70ED, .inFC),
    (16, 0x60ED, .inRC .h),
    (16, 0x71ED, .outCZero),
    (16, 0x69ED, .outCR .l),
    (16, 0x72ED, .sbcHlSs .sp),
    (16, 0x5AED, .adcHlSs .de),
    (32, 0x123443ED, .ldMemNnDd .bc 0x1234),
    (32, 0xFEDC6BED, .ldDdMemNn .hl 0xFEDC),
    (16, 0x7CED, .neg 7),
    (16, 0x4DED, .reti),
    (16, 0x75ED, .retn 6),
    (16, 0x6EED, .im0 5),
    (16, 0x76ED, .im1 1),
    (16, 0x7EED, .im2 1),
    (16, 0x47ED, .ldIA),
    (16, 0x4FED, .ldRA),
    (16, 0x57ED, .ldAI),
    (16, 0x5FED, .ldAR),
    (16, 0x67ED, .rrd),
    (16, 0x6FED, .rld)] = true := by decide

/-- The rows LDI to NOP___every_other_ED_opcode of spec/opcode_table.json, operand bits filled in. -/
theorem test_words_block_and_undefined : wordsStandFor [
    (16, 0xA0ED, .ldi),
    (16, 0xB0ED, .ldir),
    (16, 0xA8ED, .ldd),
    (16, 0xB8ED, .lddr),
    (16, 0xA1ED, .cpi),
    (16, 0xB1ED, .cpir),
    (16, 0xA9ED, .cpd),
    (16, 0xB9ED, .cpdr),
    (16, 0xA2ED, .ini),
    (16, 0xB2ED, .inir),
    (16, 0xAAED, .ind),
    (16, 0xBAED, .indr),
    (16, 0xA3ED, .outi),
    (16, 0xB3ED, .otir),
    (16, 0xABED, .outd),
    (16, 0xBBED, .otdr),
    (16, 0xEEED, .nopEd 0xEE)] = true := by decide

/-- The rows NOP to EX__SP__HL of spec/opcode_table.json, operand bits filled in. -/
theorem test_words_load : wordsStandFor [
    (8, 0x00, .nop),
    (8, 0x76, .halt),
    (8, 0x7E, .ldRMemHl .a),
    (8, 0x70, .ldMemHlR .b),
    (8, 0x4F, .ldRR .c .a),
    (16, 0x0136, .ldMemHlN 0x01),
    (16, 0x4216, .ldRN .d 0x42),
    (8, 0x0A, .ldAMemBc),
    (8, 0x1A, .ldAMemDe),
    (24, 0x90A03A, .ldAMemNn 0x90A0),
    (8, 0x02, .ldMemBcA),
    (8, 0x12, .ldMemDeA),
    (24, 0x123432, .ldMemNnA 0x1234),
    (24, 0xFEDC2A, .ldHlMemNn 0xFEDC),
    (24, 0x90A022, .ldMemNnHl 0x90A0),
    (24, 0x123431, .ldDdNn .sp 0x1234),
    (8, 0xF9, .ldSpHl),
    (8, 0xD5, .pushQq .de),
    (8, 0xC1, .popQq .bc),
    (8, 0xEB, .exDeHl),
    (8, 0x08, .exAfAf),
    (8, 0xD9, .exx),
    (8, 0xE3, .exSpHl)] = true := by decide

/-- The rows ADD_A__HL to DEC_r of spec/opcode_table.json, operand bits filled in. -/
theorem test_words_arithmetic : wordsStandFor [
    (8, 0x86, .addAMemHl),
    (8, 0x83, .addAR .e),
    (16, 0x9AC6, .addAN 0x9A),
    (8, 0x8E, .adcAMemHl),
    (8, 0x8C, .adcAR .h),
    (16, 0x01CE, .adcAN 0x01),
    (8, 0x96, .subMemHl),
    (8, 0x95, .subR .l),
    (16, 0x42D6, .subN 0x42),
    (8, 0x9E, .sbcAMemHl),
    (8, 0x9F, .sbcAR .a),
    (16, 0x9ADE, .sbcAN 0x9A),
    (8, 0xA6, .andMemHl),
    (8, 0xA0, .andR .b),
    (16, 0x01E6, .andN 0x01),
    (8, 0xAE, .xorMemHl),
    (8, 0xA9, .xorR .c),
    (16, 0x42EE, .xorN 0x42),
    (8, 0xB6, .orMemHl),
    (8, 0xB2, .orR .d),
    (16, 0x9AF6, .orN 0x9A),
    (8, 0xBE, .cpMemHl),
    (8, 0xBB, .cpR .e),
    (16, 0x01FE, .cpN 0x01),
    (8, 0x34, .incMemHl),
    (8, 0x24, .incR .h),
    (8, 0x35, .decMemHl),
    (8, 0x2D, .decR .l)] = true := by decide

/-- The rows DAA to RRA of spec/opcode_table.json, operand bits filled in. -/
theorem test_words_control_and_rotate : wordsStandFor [
    (8, 0x27, .daa),
    (8, 0x2F, .cpl),
    (8, 0x3F, .ccf),
    (8, 0x37, .scf),
    (8, 0xF3, .di),
    (8, 0xFB, .ei),
    (8, 0x29, .addHlSs .hl),
    (8, 0x33, .incSs .sp),
    (8, 0x1B, .decSs .de),
    (8, 0x07, .rlca),
    (8, 0x0F, .rrca),
    (8, 0x17, .rla),
    (8, 0x1F, .rra)] = true := by decide

/-- The rows JP_nn to OUT__n__A of spec/opcode_table.json, operand bits filled in. -/
theorem test_words_jump_and_io : wordsStandFor [
    (24, 0xFEDCC3, .jpNn 0xFEDC),
    (24, 0x90A0C2, .jpCcNn .nz 0x90A0),
    (16, 0x7F18, .jrE 0x7F),
    (16, 0x8010, .djnzE 0x80),
    (16, 0x0530, .jrCcE .nc 0x05),
    (8, 0xE9, .jpHl),
    (24, 0x1234CD, .callNn 0x1234),
    (24, 0xFEDCDC, .callCcNn .c 0xFEDC),
    (8, 0xC9, .ret),
    (8, 0xE8, .retCc .pe),
    (8, 0xEF, .rstP 5),
    (16, 0x42DB, .inAN 0x42),
    (16, 0x9AD3, .outNA 0x9A)] = true := by decide
/-- 30_encoding.md rule R158: a prefix byte before a prefix byte is an instruction of one byte. -/
theorem test_words_standalone_prefix : decodeTableWord 16 0xDDDD = some (.prefixThenIndex .ix) ∧
    decodeTableWord 16 0xDDFD = some (.prefixThenIndex .iy) ∧ decodeTableWord 16 0xEDDD = some (.prefixThenEd .ix) ∧
    encode (.prefixThenIndex .iy) = [0xFD] ∧ encode (.prefixThenEd .ix) = [0xDD] := by decide
/-- The byte after a standalone prefix is the next instruction's. -/
theorem test_decode_leaves_next : decode [0xDD, 0xFD, 0x21, 0x01, 0x00] =
    .ok (.prefixThenIndex .ix, [0xFD, 0x21, 0x01, 0x00]) := by rfl
/-- 95_test_vectors.md E6: DD CB 06 46 is BIT 0,(IX+6), four bytes. -/
theorem test_decode_index_cb : decode [0xDD, 0xCB, 0x06, 0x46, 0x99] = .ok (.bitMemIdx .ix 0x06 0 6, [0x99]) := by
  rfl
/-- Too few bytes are refused by name. -/
theorem test_decode_bytes_missing : decode [0xDD, 0x21, 0x00] = .error .bytesMissing := by rfl

/-! ### Single steps (95_test_vectors.md part 2) -/

/-- The baseline state of 95_test_vectors.md. -/
def start : State := { State.reset with pc := 0x8000 }

/-- The baseline with A and F. -/
def startAF (a f : Byte) : State := (start.setA a).setF f

/-- A byte of RAM before the step. -/
def mem (a : Word) (v : Byte) (s : State) : State := { s with bus := s.bus.poke a v }

/-- The state after one step on the bytes given at PC. -/
def run (bs : List Byte) (s : State) : State :=
  match step { s with bus := s.bus.place bs s.pc } with
  | .next t => t
  | .fault _ => State.reset
  | .refused _ => State.reset

/-- A, F, PC, R and the cost. -/
def afpr (s : State) : Byte × Byte × Word × Byte × Nat := (s.main.a, s.main.f, s.pc, s.r, s.tstates)

theorem test_ld_a_hl : afpr (run [0x7E] (mem 0x9000 0xA5 (start.setHl 0x9000))) =
    (0xA5, 0x00, 0x8001, 0x01, 7) := by decide
theorem test_ld_indexed_wraps : (run [0xFD, 0x70, 0x7F] ((start.setB 0x11).setIdx .iy 0xFFF0)).bus.ram =
    [(0x006F, 0x11), (0x8000, 0xFD), (0x8001, 0x70), (0x8002, 0x7F)] := by decide
theorem test_ld_h_is_h_not_ixh : (run [0xDD, 0x66, 0x01] (mem 0x9001 0xC3 (start.setIdx .ix 0x9000))).hl = 0xC300 := by
  decide
theorem test_ld_iyl_iyh : (run [0xFD, 0x6C] (start.setIdx .iy 0xAB00)).iy = 0xABAB := by decide
theorem test_ld_a_i : afpr (run [0xED, 0x57] { startAF 0 0x01 with iff2 := true }) =
    (0x00, 0x45, 0x8002, 0x02, 9) := by decide
theorem test_ld_a_r_counts_first : afpr (run [0xED, 0x5F] { start with r := 0x7F, iff2 := true }) =
    (0x01, 0x04, 0x8002, 0x01, 9) := by decide
theorem test_ld_r_a_all_bits : (run [0xED, 0x4F] (startAF 0x80 0)).r = 0x80 := by decide
theorem test_ld_hl_wraps : (run [0x2A, 0xFF, 0xFF] (mem 0xFFFF 0x01 (mem 0x0000 0x02 start))).hl = 0x0201 := by decide
theorem test_push_wraps : (run [0xF5] ((startAF 0x12 0xFF).setSp 0x0001)).bus.ram =
    [(0x0000, 0x12), (0x8000, 0xF5), (0xFFFF, 0xFF)] := by decide
theorem test_pop_af_every_bit : afpr (run [0xF1] (mem 0xC000 0xD7 (start.setSp 0xC000))) =
    (0x00, 0xD7, 0x8001, 0x01, 10) := by decide
theorem test_ex_sp_hl : (run [0xE3] (mem 0xC000 0x78 (mem 0xC001 0x56 ((start.setHl 0x1234).setSp 0xC000)))).hl =
    0x5678 := by decide
theorem test_ldi_flags : (run [0xED, 0xA0] (mem 0x9000 0x08 ((((startAF 0x20 0xC1).setHl 0x9000).setDe 0xA000).setBc
    0x0001))).main.f = 0xC9 := by decide
theorem test_ldir_repeats : (let t := run [0xED, 0xB0] (mem 0x9000 0x01 (((start.setHl 0x9000).setDe 0xA000).setBc
    0x0003)); (t.pc, t.bc, t.de, t.tstates)) = (0x8000, 0x0002, 0xA001, 21) := by decide
theorem test_cpi_match : afpr (run [0xED, 0xA1] (mem 0x9000 0x3C (((startAF 0x3C 0x01).setHl 0x9000).setBc 0x0001))) =
    (0x3C, 0x43, 0x8002, 0x02, 16) := by decide
theorem test_add_overflows : afpr (run [0x80] ((startAF 0x7F 0).setB 0x01)) = (0x80, 0x94, 0x8001, 0x01, 4) := by decide
theorem test_adc_wraps : afpr (run [0xCE, 0xFF] (startAF 0x00 0x01)) = (0x00, 0x51, 0x8002, 0x01, 7) := by decide
theorem test_sub_overflows : afpr (run [0x90] ((startAF 0x80 0).setB 0x01)) = (0x7F, 0x3E, 0x8001, 0x01, 4) := by decide
theorem test_sbc_a_a : afpr (run [0x9F] (startAF 0x40 0x01)) = (0xFF, 0xBB, 0x8001, 0x01, 4) := by decide
theorem test_cp_takes_operand_bits : afpr (run [0xB8] ((startAF 0x10 0).setB 0x28)) = (0x10, 0xBB, 0x8001, 0x01, 4) := by
  decide
theorem test_and_sets_h : afpr (run [0xA0] ((startAF 0xF0 0).setB 0x3C)) = (0x30, 0x34, 0x8001, 0x01, 4) := by decide
theorem test_xor_a : afpr (run [0xAF] (startAF 0x5A 0xFF)) = (0x00, 0x44, 0x8001, 0x01, 4) := by decide
theorem test_inc_a : afpr (run [0x3C] (startAF 0x7F 0x01)) = (0x80, 0x95, 0x8001, 0x01, 4) := by decide
theorem test_dec_a : afpr (run [0x3D] (startAF 0x00 0x00)) = (0xFF, 0xBA, 0x8001, 0x01, 4) := by decide
theorem test_inc_ixl : (let t := run [0xDD, 0x2C] (start.setIdx .ix 0x12FF); (t.ix, t.main.f)) = (0x1200, 0x50) := by decide
theorem test_daa_both : afpr (run [0x27] (startAF 0x9A 0x00)) = (0x00, 0x55, 0x8001, 0x01, 4) := by decide
theorem test_daa_after_subtract : afpr (run [0x27] (startAF 0xFA 0x13)) = (0x94, 0x83, 0x8001, 0x01, 4) := by decide
theorem test_neg_overflows : afpr (run [0xED, 0x44] (startAF 0x80 0)) = (0x80, 0x87, 0x8002, 0x02, 8) := by decide
theorem test_ccf : afpr (run [0x3F] (startAF 0x28 0x01)) = (0x28, 0x38, 0x8001, 0x01, 4) := by decide
theorem test_scf : afpr (run [0x37] (startAF 0xFF 0x00)) = (0xFF, 0x29, 0x8001, 0x01, 4) := by decide
theorem test_standalone_prefix : (let t := run [0xDD, 0xDD, 0x21] start; (t.pc, t.r, t.shadow, t.tstates)) =
    (0x8001, 0x01, .all, 4) := by decide
theorem test_prefix_ignored : (let t := run [0xDD, 0xEB] (((start.setDe 0x1111).setHl 0x2222).setIdx .ix 0x3333);
    (t.de, t.hl, t.ix, t.tstates)) = (0x2222, 0x1111, 0x3333, 8) := by decide
theorem test_add_hl_keeps_s_z_pv : (let t := run [0x09] (((startAF 0 0xC4).setHl 0x0FFF).setBc 0x0001);
    (t.hl, t.main.f)) = (0x1000, 0xD4) := by decide
theorem test_adc_hl_overflows : (let t := run [0xED, 0x5A] ((startAF 0 0x01).setHl 0x7FFF); (t.hl, t.main.f)) =
    (0x8000, 0x94) := by decide
theorem test_sbc_hl_hl : (let t := run [0xED, 0x62] ((startAF 0 0x01).setHl 0x1234); (t.hl, t.main.f)) =
    (0xFFFF, 0xBB) := by decide
theorem test_rlca : afpr (run [0x07] (startAF 0x81 0xC4)) = (0x03, 0xC5, 0x8001, 0x01, 4) := by decide
theorem test_sll_a : afpr (run [0xCB, 0x37] (startAF 0x80 0)) = (0x01, 0x01, 0x8002, 0x02, 8) := by decide
theorem test_rlc_copy : (let t := run [0xDD, 0xCB, 0x02, 0x00] (mem 0x9002 0x81 (start.setIdx .ix 0x9000));
    (t.main.b, t.bus.ramByte 0x9002, t.main.f, t.tstates)) = (0x03, 0x03, 0x05, 23) := by decide
theorem test_rld : (let t := run [0xED, 0x6F] (mem 0x9000 0x34 ((startAF 0x12 0).setHl 0x9000));
    (t.main.a, t.bus.ramByte 0x9000)) = (0x13, 0x42) := by decide
theorem test_bit_indexed_takes_address_bits : (run [0xDD, 0xCB, 0x00, 0x4E] (start.setIdx .ix 0x2800)).main.f = 0x7C := by
  decide
theorem test_res_copy : (let t := run [0xDD, 0xCB, 0x01, 0xB8] (mem 0x9001 0xFF (start.setIdx .ix 0x9000));
    (t.main.b, t.bus.ramByte 0x9001)) = (0x7F, 0x7F) := by decide
theorem test_jr_back : (run [0x18, 0x80] start).pc = 0x7F82 := by decide
theorem test_djnz_zero : (let t := run [0x10, 0xFE] start; (t.pc, t.main.b, t.tstates)) = (0x8000, 0xFF, 13) := by decide
theorem test_call : (let t := run [0xCD, 0x00, 0x10] (start.setSp 0xC000);
    (t.pc, t.sp, t.bus.ramWord 0xBFFE, t.tstates)) = (0x1000, 0xBFFE, 0x8003, 17) := by decide
theorem test_ret_p : (let t := run [0xF0] (mem 0xBFFE 0x03 (mem 0xBFFF 0x90 (start.setSp 0xBFFE)));
    (t.pc, t.sp, t.tstates)) = (0x9003, 0xC000, 11) := by decide
theorem test_reti_restores_iff1 : (run [0xED, 0x4D] { start with iff2 := true }).iff1 = true := by decide
theorem test_in_a_n : (run [0xDB, 0xFE] { startAF 0x7F 0 with bus := Bus.empty.listPort 0x7FFE 0xBF }).main.a = 0xBF := by
  decide
theorem test_out_c_zero : (run [0xED, 0x71] (start.setBc 0x1234)).bus.log.head? = some (.writePort 0x1234 0x00) := by
  decide
theorem test_ind_flags : (run [0xED, 0xAA] { (start.setBc 0x0101).setHl 0x8100 with
    bus := Bus.empty.listPort 0x0101 0x80 }).main.f = 0x46 := by decide
theorem test_outd_port_after_decrement : (let t := run [0xED, 0xAB] (mem 0x9000 0xFF ((start.setBc 0x01FE).setHl 0x9000));
    (t.main.f, t.bus.log.head?)) = (0x57, some (.writePort 0x00FE 0xFF)) := by decide

/-! ### Interrupts, HALT and reset -/

/-- A state with an enabled maskable request. -/
def requested (im : IntMode) (ack : Byte) : State :=
  { start.setSp 0xC000 with iff1 := true, iff2 := true, im := im, intLine := true, intAckByte := ack }

theorem test_nmi : (let t := run [0x00] { start.setSp 0x8000 with
      pc := 0x1234, iff1 := true, iff2 := true, nmiPending := true };
    (t.pc, t.sp, t.iff1, t.iff2, t.bus.ramWord 0x7FFE, t.tstates)) =
    (0x0066, 0x7FFE, false, true, 0x1234, 11) := by decide
theorem test_nmi_deferred_by_prefix : (let t := run [0x00] { start with nmiPending := true, shadow := .all };
    (t.pc, t.nmiPending, t.shadow)) = (0x8001, true, .none) := by decide
theorem test_int_mode_1 : (let t := run [0x00] (requested .im1 0xFF); (t.pc, t.sp, t.iff2, t.tstates)) =
    (0x0038, 0xBFFE, false, 13) := by decide
theorem test_int_mode_0_rst : (run [0x00] (requested .im0 0xD7)).pc = 0x0010 := by decide
theorem test_int_mode_0_refused : step (requested .im0 0x00) = .refused (.mode0AckNotRst 0x00) := by rfl
theorem test_int_mode_2 : (let t := run [0x00] (mem 0x8100 0x90 { requested .im2 0xFF with i := 0x80 });
    (t.pc, t.tstates)) = (0x9000, 19) := by decide
theorem test_ei_delays : (let t := run [0xFB] { start with im := .im1, intLine := true };
    (t.pc, t.iff1, t.shadow, (run [0x00] t).pc)) = (0x8001, true, .int, 0x8002) := by decide
theorem test_halt_then_int : (let t := run [0x76] start; (t.pc, t.halted)) = (0x8001, true) ∧
    (let t := run [0x76] { requested .im1 0xFF with pc := 0x8001, halted := true };
      (t.pc, t.halted, t.bus.ramWord 0xBFFE)) = (0x0038, false, 0x8001) := by decide
theorem test_halted_cycle : (let t := run [0x76] { start with pc := 0x8001, halted := true };
    (t.pc, t.r, t.halted, t.tstates)) = (0x8001, 0x01, true, 4) := by decide
/-- The state before the vector of the reset operation. -/
def beforeReset : State :=
  { requested .im2 0xFF with pc := 0x1234, i := 0x3F, r := 0x55, halted := true, tstates := 12345 }

/-- Its `resetRegs`. -/
def ones : ResetRegs :=
  ⟨⟨255, 255, 255, 255, 255, 255, 255, 255⟩, ⟨255, 255, 255, 255, 255, 255, 255, 255⟩, 0xFFFF, 0xFFFF, 0xFFFF⟩

theorem test_reset_operation : (let t := beforeReset.hostReset ones;
    (t.pc, t.i, t.r, t.iff1, t.im, t.halted)) = (0x0000, 0x00, 0x00, false, .im0, false) ∧
    (let t := beforeReset.hostReset ones;
    (t.intLine, t.alt.l, t.sp, t.tstates)) = (true, 0xFF, 0xFFFF, 0) := by decide
/-- A table word placed at reset is the first instruction that runs: LD IX,0x4000. -/
theorem test_withFetchWord : (match step (State.reset.withFetchWord 32 0x400021DD) with
    | .next t => (t.ix, t.pc) == (0x4000, 0x0004)
    | _ => false) = true := by decide
/-- The placed bytes are plain RAM even where the bus owner held the addresses otherwise. -/
theorem test_withFetchWord_claims : (match step (({ State.reset with
      bus := ⟨[], [(0, 65536)], [], []⟩, halted := true, nmiPending := true } : State).withFetchWord 8 0x3C) with
    | .next t => (t.main.a, t.pc) == (0x01, 0x0001)
    | _ => false) = true := by decide

/-! ### Witnesses: states and operands that meet the hypotheses of the obligations -/

/-- A state with bytes of RAM at both ends of the address space. -/
def full : State := mem 0x0000 0x12 (mem 0xFFFF 0x34 (mem 0x8000 0x3C { start with iff1 := true, iff2 := true }))

theorem test_witness_ram : Memory.wf full.bus.ram = true ∧ full.bus.ram.length = 3 := by decide
theorem test_witness_StoreForms : Memory.wf full.bus.ram = true := test_witness_ram.1
theorem test_witness_AbsoluteWordForms : Memory.wf full.bus.ram = true := test_witness_ram.1
theorem test_witness_PushAndPopForms : Memory.wf full.bus.ram = true := test_witness_ram.1
theorem test_witness_StackTopExchanges : Memory.wf full.bus.ram = true := test_witness_ram.1
theorem test_witness_BlockTransferForms : Memory.wf full.bus.ram = true := test_witness_ram.1
theorem test_witness_DigitRotates : Memory.wf full.bus.ram = true := test_witness_ram.1
theorem test_witness_BlockInputAndOutputForms : Memory.wf full.bus.ram = true := test_witness_ram.1

theorem test_witness_DecodeOfEncode : (Instr.retn 7).wf = true ∧ followedBy (.retn 7) [] = true ∧
    (Instr.prefixThenEd .iy).wf = true ∧ followedBy (.prefixThenEd .iy) [0xED, 0x44] = true ∧
    (Instr.prefixThenIndex .ix).wf = true ∧ followedBy (.prefixThenIndex .ix) [0xFD] = true := by decide
theorem test_witness_LengthAndRefreshFromFirstBytes :
    decode [0xDD, 0xCB, 0x05, 0x06, 0x99] = .ok (.rlcMemIdx .ix 0x05, [0x99]) ∧
      decode [0xFD, 0xED, 0x00, 0x00] = .ok (.prefixThenEd .iy, [0xED, 0x00, 0x00]) := by
  constructor <;> rfl
theorem test_witness_StepRunsDecodedInstruction : full.runsInstruction = true ∧
    decode (full.answers 4 full.pc) = .ok (.incR .a, [0x00, 0x00, 0x00]) := by
  constructor <;> rfl
theorem test_witness_StepFaultsNeverAndRefusesOnce : ∃ (k : Session) (q : Refusal), step k.core = .refused q ∧
    k.execute.refused = true :=
  ⟨⟨requested .im0 0x00, .zero, false⟩, .mode0AckNotRst 0x00, rfl, by decide⟩
theorem test_witness_NmiAcceptance : ∃ s : State, Memory.wf s.bus.ram = true ∧ s.nmiPending = true ∧ s.shadow ≠ .all ∧
    s.sp = 0x0001 := ⟨{ full with nmiPending := true, sp := 0x0001, shadow := .int }, by decide⟩
/-- The first and the last RST, and mode 1. -/
theorem test_witness_IntAcceptanceAtFixedAddress : [requested .im0 0xC7, requested .im0 0xFF, requested .im1 0x00].all
    (fun s => Memory.wf s.bus.ram && !s.nmiPending && s.intLine && s.iff1 && s.shadow == .none) = true ∧
    (requested .im0 0xC7).intAckByte = op8 3 0 7 ∧ (requested .im0 0xFF).intAckByte = op8 3 7 7 ∧
    (requested .im1 0x00).im = .im1 := by decide
/-- The vector at the top of memory: its second byte is at 0x0000. -/
theorem test_witness_IntAcceptanceThroughVector : ∃ (s : State) (v : Word), Memory.wf s.bus.ram = true ∧
    s.nmiPending = false ∧ s.intLine = true ∧ s.iff1 = true ∧ s.shadow = .none ∧ s.im = .im2 ∧
    v.toNat = s.i.toNat * 256 + s.intAckByte.toNat ∧ s.bus.isForeign v = false ∧
    s.bus.isForeign (v + 1) = false ∧ v + 1 = 0 :=
  ⟨{ requested .im2 0xFF with i := 0xFF, bus := full.bus }, 0xFFFF, by decide⟩
theorem test_witness_HaltedCycleOnlyRefreshes : ∃ s : State, s.halted = true ∧ s.takesNmi = false ∧ s.takesInt = false ∧
    s.intLine = true := ⟨{ start with halted := true, intLine := true }, by decide⟩
theorem test_witness_ShadowsInhibitRequests :
    (∃ t, start.eiDelay = true ∧ exec .ei start = .next t) ∧
    (∃ t, exec .ei { requested .im1 0 with eiDelay := false } = .next t ∧ t.takesInt = true) ∧
    (∃ t, exec (.prefixThenIndex .ix) start = .next t) ∧ ∃ t, exec (.prefixThenEd .iy) start = .next t :=
  ⟨⟨_, rfl, rfl⟩, ⟨_, rfl, by decide⟩, ⟨_, rfl⟩, ⟨_, rfl⟩⟩
/-- The handler has changed A, and pushed and popped below the stacked address. -/
theorem test_witness_ReturnFromNmiRestores : ∃ s t u : State, Memory.wf s.bus.ram = true ∧ s.iff1 = s.iff2 ∧
    s.takesNmi = true ∧ step s = .next t ∧ s.bus.isForeign (s.sp - 1) = false ∧ s.bus.isForeign (s.sp - 2) = false ∧
    u.sp = t.sp ∧ u.iff2 = t.iff2 ∧ u.bus.foreign = t.bus.foreign ∧
    u.bus.ramByte (s.sp - 1) = t.bus.ramByte (s.sp - 1) ∧ u.bus.ramByte (s.sp - 2) = t.bus.ramByte (s.sp - 2) ∧
    u.main.a ≠ s.main.a :=
  ⟨{ full with nmiPending := true, sp := 0x0001 }, _,
    mem 0xFFFD 0x77 ((acceptNmi { full with nmiPending := true, sp := 0x0001 }).setA 0x55), by decide, by decide,
    by decide, rfl, by decide, by decide, by decide, by decide, by decide, by decide, by decide, by decide⟩

theorem test_reset_inv : State.reset.Inv := by constructor <;> decide
theorem test_witness_StepKeepsInvariant : ∃ t, full.Inv ∧ step full = .next t ∧ t.main.a = 0x01 :=
  ⟨_, by constructor <;> decide, rfl, by decide⟩
theorem test_witness_RunKeepsInvariant : ∃ k : Session, k.core.Inv ∧ k.core.iff1 = true :=
  ⟨⟨full, .zero, false⟩, by constructor <;> decide, by decide⟩

/-- The state before the bytes given run. -/
def before (bs : List Byte) (s : State) : State := { s with bus := s.bus.place bs s.pc }

theorem test_witness_OnlyLdIAWritesI : ∃ t, step (before [0xED, 0x47] (startAF 0x3F 0)) = .next t ∧ t.i ≠ start.i :=
  ⟨_, rfl, by decide⟩
/-- LD R,A, another instruction, and an acceptance. -/
theorem test_witness_RefreshCountsM1Cycles :
    (∃ t, step (before [0xED, 0x4F] start) = .next t ∧ (fetch (before [0xED, 0x4F] start)).1 = .ldRA) ∧
    (∃ t, step (before [0xDD, 0x00] start) = .next t ∧ (fetch (before [0xDD, 0x00] start)).1 ≠ .ldRA) ∧
    ∃ t, step (requested .im1 0) = .next t ∧ (requested .im1 0).runsInstruction = false :=
  ⟨⟨_, rfl, by decide⟩, ⟨_, rfl, by decide⟩, _, rfl, by decide⟩
theorem test_witness_OnlyImWritesTheMode : (∃ t, step (before [0xED, 0x5E] start) = .next t ∧ t.im ≠ start.im) ∧
    (∃ t, step (before [0xED, 0x56] start) = .next t ∧ t.im ≠ start.im) ∧
    ∃ t, step (before [0xED, 0x4E] { start with im := .im2 }) = .next t ∧ t.im ≠ .im2 :=
  ⟨⟨_, rfl, by decide⟩, ⟨_, rfl, by decide⟩, _, rfl, by decide⟩
theorem test_witness_OnlyExchangesReachTheShadowSet :
    ∃ t, step (before [0xD9] (start.setBc 0x0102)) = .next t ∧ t.alt ≠ start.alt := ⟨_, rfl, by decide⟩
theorem test_witness_StepNeverWritesTheInputs :
    ∃ t, step { full with nmiPending := true } = .next t ∧ t.nmiPending = false := ⟨_, rfl, by decide⟩
/-- Each clause: DI, HALT, and an acceptance that leaves HALT. -/
theorem test_witness_ControlFlagsHaveFewWriters :
    (∃ t, step (before [0xF3] full) = .next t ∧ t.iff2 ≠ full.iff2) ∧
    (∃ t, step (before [0x76] start) = .next t ∧ t.halted = true ∧ start.halted = false) ∧
    ∃ t, step { requested .im1 0 with halted := true } = .next t ∧ t.halted = false :=
  ⟨⟨_, rfl, by decide⟩, ⟨_, rfl, by decide, by decide⟩, _, rfl, by decide⟩
theorem test_witness_StepIsIndependentOfTime :
    (∃ t, step (before [0xE3] start) = .next t) ∧ ∃ q, step (requested .im0 0x00) = .refused q :=
  ⟨⟨_, rfl⟩, .mode0AckNotRst 0x00, rfl⟩
/-- EX (SP),IX makes six calls. -/
theorem test_witness_MemoryChangesOnlyByWriteCalls : ∃ t, Memory.wf (before [0xDD, 0xE3] full).bus.ram = true ∧
    step (before [0xDD, 0xE3] full) = .next t ∧ t.bus.log.length = 6 := ⟨_, by decide, rfl, by decide⟩

theorem test_witness_EqualReadsAreEqualRam : Memory.wf [(0, 1), (65535, 2)] = true ∧
    Memory.wf (Memory.write (Memory.write [(65535, 2)] 7 3) 0 1) = true ∧ (0 : Nat) ≠ 65535 := by decide
/-- A word at 0xFFFF: its second byte is at 0x0000. -/
theorem test_witness_WordStoreThenLoad : Memory.wf full.bus.ram = true ∧ full.bus.isForeign 0xFFFF = false ∧
    full.bus.isForeign ((0xFFFF : Word) + 1) = false := by decide
/-- A push at SP = 0x0001, and one at SP = 0x0000. -/
theorem test_witness_PopAfterPush : Memory.wf full.bus.ram = true ∧
    [(0x0001 : Word), 0x0000].all (fun sp => !full.bus.isForeign (sp - 1) && !full.bus.isForeign (sp - 2)) = true := by
  decide

/-- Every form of the operand. -/
theorem test_witness_IncrementAndDecrementForms : Memory.wf full.bus.ram = true ∧
    Target.inc (.reg .a) = some (.incR .a) ∧ Target.inc .memHl = some .incMemHl ∧
    Target.inc (.memIdx .iy 0x80) = some (.incMemIdx .iy 0x80) ∧ Target.inc (.half .ix .low) = some (.incHalf .ix .low) ∧
    Target.dec (.reg .a) = some (.decR .a) ∧ Target.dec .memHl = some .decMemHl ∧
    Target.dec (.memIdx .iy 0x80) = some (.decMemIdx .iy 0x80) ∧
    Target.dec (.half .ix .high) = some (.decHalf .ix .high) := by decide
theorem test_witness_DecrementUndoesIncrement : ∃ t, Memory.wf full.bus.ram = true ∧
    Target.inc .memHl = some .incMemHl ∧ Target.dec .memHl = some .decMemHl ∧
    Target.address full .memHl = some 0x0000 ∧ full.bus.isForeign 0x0000 = false ∧
    exec .incMemHl full = .next t := ⟨_, by decide, rfl, rfl, by decide, by decide, rfl⟩
theorem test_witness_IgnoredPrefixCostsFour : (Instr.callNn 0xFFFF).ignoresPrefix = true ∧
    Instr.nop.ignoresPrefix = true := by decide
theorem test_witness_RotateAndShiftForms : Memory.wf full.bus.ram = true ∧
    Target.rotate 0 (.reg .b) = some (.rlcR .b) ∧ Target.rotate 6 .memHl = some .sllMemHl ∧
    Target.rotate 5 (.memIdx .ix 0xFF) = some (.sraMemIdx .ix 0xFF) ∧
    Target.rotate 7 (.copy .iy 0x80 .h) = some (.srlMemIdxCopy .iy 0x80 .h) := by decide
theorem test_witness_BitResetAndSetForms : Memory.wf full.bus.ram = true ∧
    (if true then Target.set 7 (.reg .a) else Target.res 7 (.reg .a)) = some (.setR 7 .a) ∧
    (if false then Target.set 0 .memHl else Target.res 0 .memHl) = some (.resMemHl 0) ∧
    Target.res 3 (.memIdx .ix 1) = some (.resMemIdx .ix 1 3) ∧
    Target.set 3 (.copy .iy 0xFF .l) = some (.setMemIdxCopy .iy 0xFF 3 .l) := by decide
/-- Each condition, met and not met. -/
theorem test_witness_CallForms : Memory.wf full.bus.ram = true ∧
    [Cond.nz, .nc, .po, .p].all (Cond.met (startAF 0 0x00).flags) = true ∧
    [Cond.z, .c, .pe, .m].all (Cond.met (startAF 0 0xFF).flags) = true ∧
    [Cond.z, .c, .pe, .m].all (fun cc => !Cond.met (startAF 0 0x00).flags cc) = true := by decide
theorem test_witness_ReturnForms : Cond.met (startAF 0 0x80).flags .m = true ∧
    Cond.met (startAF 0 0x80).flags .p = false := by decide
/-- The mode 3; the mode 2, with a misfit and with none; a byte of 256 in the middle and last of the fields, a word of
65536; and a state whose record is taken back. -/
theorem test_witness_ConstructionErrors : 2 < ({ start.record with im := 3 } : StateRecord).im ∧
    ({ start.record with im := 2, intAckByte := 256 } : StateRecord).im ≤ 2 ∧
    (∃ x ∈ ({ start.record with im := 2, intAckByte := 256 } : StateRecord).fields, x.fits = false) ∧
    (∀ x ∈ ({ start.record with im := 2 } : StateRecord).fields, x.fits = true) ∧
    start.decode = .base ∧ (∀ x ∈ start.record.fields, x.fits = true) ∧ start.record.fields.length = 23 ∧
    (({ start.record with intAckByte := 256 } : StateRecord).fields.find? (fun x => !x.fits)) =
      some ⟨"intAckByte", 8, 256⟩ ∧
    (({ start.record.regs with sp := 65536 } : ResetRecord).fields.find? (fun x => !x.fits)) =
      some ⟨"SP", 16, 65536⟩ ∧
    (({ start.record.regs with main := { start.record.regs.main with a := 255, f := 256 } } :
      ResetRecord).fields.find? (fun x => !x.fits)) = some ⟨"F", 8, 256⟩ := by decide
/-- What 70_reset_and_hazards.md rule R704 answers to such records. -/
theorem test_construction_errors :
    constructFrom start.bus start.eiDelay { start.record with im := 3 } = .error (.invalidInterruptMode 3) ∧
    constructFrom start.bus start.eiDelay { start.record with im := 2 } = .ok { start with im := .im2 } ∧
    constructFrom start.bus start.eiDelay { start.record with im := 2, intAckByte := 256 } =
      .error (.invalidRegisterValue "intAckByte") ∧
    constructFrom start.bus start.eiDelay { start.record with intAckByte := 256 } =
      .error (.invalidRegisterValue "intAckByte") ∧
    constructFrom start.bus start.eiDelay { start.record with pc := 65536 } =
      .error (.invalidRegisterValue "PC") ∧
    construct start.bus true { start.record.regs with alt := { start.record.regs.alt with l := 256 } } =
      .error (.invalidRegisterValue "L'") := ⟨rfl, rfl, rfl, rfl, rfl, rfl⟩

/-! ### The end of a run (70_reset_and_hazards.md rule R718) -/

/-- Three steps over a HALT at 0x8000, with maskable interrupts disabled. -/
def haltRun (declared : Option Nat) : HostRun :=
  ⟨⟨mem 0x8000 0x76 start, ResetRegs.zero, false⟩, [[], [.setInt true 0xFF], []], declared⟩

/-- The first quiescent boundary is the one after HALT, or the one where the host declares that no NMI comes; without
the declaration there is none. -/
theorem test_first_quiescent_boundary : (haltRun (some 0)).wf = true ∧
    (haltRun (some 0)).endBoundary .quiescent = some 1 ∧ (haltRun (some 2)).endBoundary .quiescent = some 2 ∧
    (haltRun none).endBoundary .quiescent = none := by decide
theorem test_end_after_steps : (haltRun none).endBoundary (.after 2) = some 2 ∧
    (haltRun none).endBoundary (.after 4) = none := by decide

end Sys2Proof.Tests
end

/-! What a step does to the control items of the state (10_state.md): every item but the data registers, SP, PC, RAM
and the log of bus calls. Each instruction is compared with `controlStep`, its effect on these items alone,
and the whole-machine rules are read off that. -/

namespace Sys2Proof.Machine

/-! ### The control items, and the T-state counter set aside -/

/-- The items of state that few events write. -/
structure Control where
  alt : RegBank
  i : Byte
  r : Byte
  iff1 : Bool
  iff2 : Bool
  im : IntMode
  halted : Bool
  shadow : Shadow
  nmiPending : Bool
  intLine : Bool
  intAckByte : Byte
  tstates : Nat
  decode : DecodeState
  eiDelay : Bool
  foreign : List (Nat × Nat)
  ports : List Host.Cell

/-- The control items of a state. -/
def State.control (s : State) : Control :=
  ⟨s.alt, s.i, s.r, s.iff1, s.iff2, s.im, s.halted, s.shadow, s.nmiPending, s.intLine, s.intAckByte, s.tstates,
    s.decode, s.eiDelay, s.bus.foreign, s.bus.ports⟩

/-- RAM has its canonical form. -/
def State.CanonicalRam (s : State) : Prop := Memory.wf s.bus.ram = true

/-- The state with another T-state count. -/
def State.atTime (n : Nat) (s : State) : State := { s with tstates := n }

/-- From s to t no control item is changed, and RAM keeps its canonical form. -/
structure SameControl (s t : State) : Prop where
  control : t.control = s.control
  ram : s.CanonicalRam → t.CanonicalRam

/-! ### What the shared operations do to the control items -/

section SameControl

variable {s t : State}

@[simp] theorem SameControl.refl (s : State) : SameControl s s := ⟨rfl, id⟩

/-- An operation that changes neither a control item nor RAM may be left out. -/
theorem sameControl_iff_of_eq {u : State} (hc : u.control = t.control) (hr : u.bus.ram = t.bus.ram) :
    SameControl s u ↔ SameControl s t := by
  have e : u.CanonicalRam ↔ t.CanonicalRam := by rw [State.CanonicalRam, State.CanonicalRam, hr]
  exact ⟨fun h => ⟨hc ▸ h.control, fun w => e.1 (h.ram w)⟩, fun h => ⟨hc.trans h.control, fun w => e.2 (h.ram w)⟩⟩

@[simp] theorem sameControl_setReg (r : Reg8) (v : Byte) : SameControl s (t.setReg r v) ↔ SameControl s t :=
  sameControl_iff_of_eq rfl rfl
@[simp] theorem sameControl_setIdx (x : Idx) (v : Word) : SameControl s (t.setIdx x v) ↔ SameControl s t :=
  sameControl_iff_of_eq rfl rfl
@[simp] theorem sameControl_setHalf (x : Idx) (k : Half) (v : Byte) :
    SameControl s (t.setHalf x k v) ↔ SameControl s t := by
  cases k <;> exact sameControl_iff_of_eq rfl rfl
@[simp] theorem sameControl_setPair (p : Pair) (v : Word) : SameControl s (t.setPair p v) ↔ SameControl s t := by
  cases p <;> exact sameControl_iff_of_eq rfl rfl
@[simp] theorem sameControl_setStackPair (p : StackPair) (v : Word) :
    SameControl s (t.setStackPair p v) ↔ SameControl s t := by
  cases p <;> exact sameControl_iff_of_eq rfl rfl
@[simp] theorem sameControl_setBc (v : Word) : SameControl s (t.setBc v) ↔ SameControl s t :=
  sameControl_iff_of_eq rfl rfl
@[simp] theorem sameControl_setDe (v : Word) : SameControl s (t.setDe v) ↔ SameControl s t :=
  sameControl_iff_of_eq rfl rfl
@[simp] theorem sameControl_setHl (v : Word) : SameControl s (t.setHl v) ↔ SameControl s t :=
  sameControl_iff_of_eq rfl rfl
@[simp] theorem sameControl_setSp (v : Word) : SameControl s (t.setSp v) ↔ SameControl s t :=
  sameControl_iff_of_eq rfl rfl
@[simp] theorem sameControl_setA (v : Byte) : SameControl s (t.setA v) ↔ SameControl s t :=
  sameControl_iff_of_eq rfl rfl
@[simp] theorem sameControl_setF (v : Byte) : SameControl s (t.setF v) ↔ SameControl s t :=
  sameControl_iff_of_eq rfl rfl
@[simp] theorem sameControl_setB (v : Byte) : SameControl s (t.setB v) ↔ SameControl s t :=
  sameControl_iff_of_eq rfl rfl
@[simp] theorem sameControl_setPc (a : Word) : SameControl s (t.setPc a) ↔ SameControl s t :=
  sameControl_iff_of_eq rfl rfl
@[simp] theorem sameControl_afterRead (a : Word) : SameControl s (t.afterRead a) ↔ SameControl s t :=
  sameControl_iff_of_eq rfl rfl
@[simp] theorem sameControl_afterReadWord (a : Word) : SameControl s (t.afterReadWord a) ↔ SameControl s t :=
  sameControl_iff_of_eq rfl rfl
@[simp] theorem sameControl_afterPop : SameControl s t.afterPop ↔ SameControl s t :=
  sameControl_iff_of_eq rfl rfl
@[simp] theorem sameControl_afterPortRead (p : Word) : SameControl s (t.afterPortRead p) ↔ SameControl s t :=
  sameControl_iff_of_eq rfl rfl
@[simp] theorem sameControl_portWrite (p : Word) (v : Byte) : SameControl s (t.portWrite p v) ↔ SameControl s t :=
  sameControl_iff_of_eq rfl rfl
@[simp] theorem sameControl_alu (op : AluOp) (v : Byte) : SameControl s (t.alu op v) ↔ SameControl s t := by
  simp [State.alu]
@[simp] theorem sameControl_blockCompare (d : Word) : SameControl s (t.blockCompare d) ↔ SameControl s t := by
  simp [State.blockCompare]
@[simp] theorem sameControl_blockOut (d : Word) : SameControl s (t.blockOut d) ↔ SameControl s t := by
  simp [State.blockOut]
@[simp] theorem sameControl_jumpRelative (e : Byte) : SameControl s (t.jumpRelative e) ↔ SameControl s t :=
  sameControl_iff_of_eq rfl rfl
@[simp] theorem sameControl_popPc : SameControl s t.popPc ↔ SameControl s t :=
  sameControl_iff_of_eq rfl rfl
@[simp] theorem sameControl_loadA (a : Word) : SameControl s (t.loadA a) ↔ SameControl s t := by simp [State.loadA]
@[simp] theorem sameControl_loadAIr (v : Byte) : SameControl s (t.loadAIr v) ↔ SameControl s t := by
  simp [State.loadAIr]
@[simp] theorem sameControl_rotateA (op : RotOp) : SameControl s (t.rotateA op) ↔ SameControl s t := by
  simp [State.rotateA]

/-- A write changes no control item and keeps the canonical form of RAM. -/
@[simp] theorem sameControl_memWrite (a : Word) (v : Byte) (h : SameControl s t) : SameControl s (t.memWrite a v) :=
  ⟨h.control, fun w => Bus.wf_writeByte (h.ram w)⟩

@[simp] theorem sameControl_memWriteWord (a v : Word) (h : SameControl s t) : SameControl s (t.memWriteWord a v) := by
  simp [State.memWriteWord, h]

@[simp] theorem sameControl_push16 (v : Word) (h : SameControl s t) : SameControl s (t.push16 v) :=
  ⟨h.control, fun w => Bus.wf_writeByte (Bus.wf_writeByte (h.ram w))⟩

@[simp] theorem sameControl_call (a : Word) (h : SameControl s t) : SameControl s (t.call a) := by
  simp [State.call, h]

@[simp] theorem sameControl_modify (g : Byte → Byte → Byte × Byte) (a : Word) (h : SameControl s t) :
    SameControl s (t.modify g a) := by
  simp [State.modify, h]

@[simp] theorem sameControl_rewrite (g : Byte → Byte) (a : Word) (h : SameControl s t) :
    SameControl s (t.rewrite g a) := by
  simp [State.rewrite, h]

@[simp] theorem sameControl_exchangeTop (v : Word) (h : SameControl s t) : SameControl s (t.exchangeTop v) := by
  simp [State.exchangeTop, h]

@[simp] theorem sameControl_blockLoad (d : Word) (h : SameControl s t) : SameControl s (t.blockLoad d) := by
  simp [State.blockLoad, h]

@[simp] theorem sameControl_blockIn (d : Word) (h : SameControl s t) : SameControl s (t.blockIn d) := by
  simp [State.blockIn, h]

@[simp] theorem sameControl_rotateDigitLeft (h : SameControl s t) : SameControl s t.rotateDigitLeft := by
  simp [State.rotateDigitLeft, h]

@[simp] theorem sameControl_rotateDigitRight (h : SameControl s t) : SameControl s t.rotateDigitRight := by
  simp [State.rotateDigitRight, h]

end SameControl

/-! ### What an instruction does to the control items -/

/-- The effect on the control items of an instruction that an index byte before it may leave unchanged. -/
def controlStepBase : Instr → State → State
  | .exAfAf, s => s.swapAf
  | .exx, s => s.swapBanks
  | .di, s => { s with iff1 := false, iff2 := false }
  | .ei, s => s.enableInterrupts
  | _, s => s

/-- The effect of an instruction on the control items. -/
def controlStep : Instr → State → State
  | .ldIA, s => { s with i := s.main.a }
  | .ldRA, s => { s with r := s.main.a }
  | .im0 _, s => { s with im := .im0 }
  | .im1 _, s => { s with im := .im1 }
  | .im2 _, s => { s with im := .im2 }
  | .reti, s | .retn _, s => { s with iff1 := s.iff2 }
  | .halt, s | .haltIgnored _, s => { s with halted := true }
  | .prefixThenIndex _, s | .prefixThenEd _, s => { s with shadow := .all }
  | .prefixIgnored _ base, s => controlStepBase base s
  | i, s => controlStepBase i s

/-- The meaning `f` answers `s` with `u` at a cost of k T-states, `4 ≤ k ≤ most`: on the control items it does what
`act` does, and it neither reads the T-state counter nor moves it but by k. -/
structure Charges (f : State → Result) (act : State → State) (most : Nat) (s u : State) (k : Nat) : Prop where
  answer : f s = .next (u.cost k)
  same : SameControl (act s) u
  least : 4 ≤ k := by decide
  most : k ≤ most := by decide
  timeless : ∀ n, f (s.atTime n) = .next ((u.atTime n).cost k) := by exact fun _ => rfl

/-- The meaning `f` either answers `s` as `Charges` says, or refuses it whatever the T-state count is. -/
def Answers (f : State → Result) (act : State → State) (most : Nat) (s : State) : Prop :=
  (∃ u k, Charges f act most s u k) ∨ ∃ q, ∀ n, f (s.atTime n) = .refused q

section Answers

variable {f g : State → Result} {act act' : State → State} {m m' : Nat} {s : State}

/-- A larger bound on the cost is one too. -/
theorem Answers.widen (h : Answers f act m s) (hm : m ≤ m') : Answers f act m' s := by
  obtain ⟨u, k, hk⟩ | hq := h
  · exact .inl ⟨u, k, { hk with most := hk.most.trans hm }⟩
  · exact .inr hq

/-- A meaning that is another one on `s`, at every T-state count. -/
theorem Answers.congr (h : Answers g act' m s) (ha : act s = act' s) (hs : f s = g s)
    (hn : ∀ n, f (s.atTime n) = g (s.atTime n)) : Answers f act m s := by
  obtain ⟨u, k, hk⟩ | ⟨q, hq⟩ := h
  · exact .inl ⟨u, k,
      { hk with
        answer := hs.trans hk.answer
        same := ha ▸ hk.same
        timeless := fun n => (hn n).trans (hk.timeless n) }⟩
  · exact .inr ⟨q, fun n => (hn n).trans (hq n)⟩

/-- A meaning that chooses between two, by what the T-state counter does not reach. -/
theorem Answers.ite {b : State → Bool} (hb : ∀ n, b (s.atTime n) = b s) (hf : Answers f act m s)
    (hg : Answers g act' m s) :
    Answers (fun s => if b s then f s else g s) (fun s => if b s then act s else act' s) m s := by
  cases e : b s with
  | true => exact hf.congr (by simp [e]) (by simp [e]) fun n => by simp [hb, e]
  | false => exact hg.congr (by simp [e]) (by simp [e]) fun n => by simp [hb, e]

/-- A choice between two next states. -/
theorem Answers.choice {b : State → Bool} {x y : State → State} (hb : ∀ n, b (s.atTime n) = b s)
    (hx : Answers (fun s => .next (x s)) act m s) (hy : Answers (fun s => .next (y s)) act m s) :
    Answers (fun s => .next (if b s then x s else y s)) act m s :=
  (Answers.ite hb hx hy).congr (ite_self _).symm (apply_ite _ _ _ _) fun _ => apply_ite _ _ _ _

/-- A meaning that changes no control item, as most instructions' do: once its answer is known, the rest is by the
lemmas about the operations and by unfolding. -/
theorem Answers.quiet {u : State} {k : Nat} (answer : f s = .next (u.cost k)) (act_eq : act s = s := by rfl)
    (same : SameControl s u := by simp) (least : 4 ≤ k := by decide) (most : k ≤ m := by decide)
    (timeless : ∀ n, f (s.atTime n) = .next ((u.atTime n).cost k) := by exact fun _ => rfl) : Answers f act m s :=
  .inl ⟨u, k, { answer, same := act_eq.symm ▸ same, least, most, timeless }⟩

/-- An iteration of a repeating block instruction, where the iteration itself changes no control item
(42_exchange_block.md rule R275). -/
theorem Answers.repeatIf {x : State → State} {b : State → Bool} (act_eq : act s = s := by rfl)
    (same : SameControl s (x s) := by simp) (hb : ∀ n, b (s.atTime n) = b s := by exact fun _ => rfl)
    (timeless : ∀ n, x (s.atTime n) = (x s).atTime n := by exact fun _ => rfl) :
    Answers (fun s => .next ((x s).repeatIf (b s))) act 23 s := by
  refine .choice hb
    (.quiet (u := (x s).setPc ((x s).pc - 2)) rfl act_eq ((sameControl_setPc _).2 same) (by decide) (by decide)
      fun n => ?_)
    (.quiet rfl act_eq same (by decide) (by decide) fun n => ?_)
  · rw [timeless]; rfl
  · rw [timeless]

end Answers

/-- The instructions that an index byte before them may leave unchanged cost 4 to 17 T-states. -/
theorem execBase_answers (i : Instr) (s : State) : Answers (execBase i) (controlStepBase i) 17 s := by
  cases i with
  | nop | ldRR | ldRN | ldAMemBc | ldAMemDe | ldAMemNn | exDeHl | addAR | addAN | adcAR | adcAN | subR | subN |
  sbcAR | sbcAN | andR | andN | xorR | xorN | orR | orN | cpR | cpN | incR | decR | daa | cpl | ccf | scf | rlca |
  rrca | rla | rra | jpNn | jrE | ret | inAN | outNA | ldMemBcA | ldMemDeA | ldMemNnA | pushQq | callNn | rstP =>
    exact .quiet rfl
  | ldDdNn p | incSs p | decSs p => cases p <;> exact .quiet rfl
  | popQq p => cases p <;> exact .quiet rfl
  | jpCcNn cc nn =>
    have h : execBase (.jpCcNn cc nn) = fun s => .next (if s.cond cc then (s.setPc nn).cost 10 else s.cost 10) :=
      funext fun s => congrArg Host.Outcome.next (apply_ite (State.cost 10) _ _ _)
    exact h ▸ .choice (fun _ => rfl) (.quiet rfl) (.quiet rfl)
  | jrCcE cc => exact .choice (b := (·.cond (JrCond.cond cc))) (fun _ => rfl) (.quiet rfl) (.quiet rfl)
  | djnzE => exact .choice (b := (·.main.b - 1 != 0)) (fun _ => rfl) (.quiet rfl) (.quiet rfl)
  | callCcNn cc | retCc cc => exact .choice (b := (·.cond cc)) (fun _ => rfl) (.quiet rfl) (.quiet rfl)
  | exAfAf | exx | di | ei => exact .inl ⟨_, _, { answer := rfl, same := .refl _ }⟩
  | _ => exact .inr ⟨.noSuchBase, fun _ => rfl⟩

/-- An ignored index byte costs four T-states more (44_general_cpu.md rule R388). -/
theorem execPrefixIgnored_answers (base : Instr) (s : State) :
    Answers (execPrefixIgnored base) (controlStepBase base) 23 s := by
  obtain ⟨u, k, hk⟩ | ⟨q, hq⟩ := execBase_answers base s
  · exact .inl ⟨u, k + 4,
      { hk with
        answer := congrArg (Result.addCost 4) hk.answer
        least := hk.least.trans (Nat.le_add_right k 4)
        most := (Nat.add_le_add_right hk.most 4).trans (by decide)
        timeless := fun n => congrArg (Result.addCost 4) (hk.timeless n) }⟩
  · exact .inr ⟨q, fun n => congrArg (Result.addCost 4) (hq n)⟩

theorem repeatedLoad_answers (d : Word) (s : State) :
    Answers (fun s => .next ((s.blockLoad d).repeatIf ((s.blockLoad d).bc != 0))) id 23 s := .repeatIf

theorem repeatedCompare_answers (d : Word) (s : State) :
    Answers (fun s => .next ((s.blockCompare d).repeatIf
      ((s.blockCompare d).bc != 0 && s.main.a - s.memByte s.hl != 0))) id 23 s := .repeatIf

theorem repeatedIn_answers (d : Word) (s : State) :
    Answers (fun s => .next ((s.blockIn d).repeatIf ((s.blockIn d).main.b != 0))) id 23 s := .repeatIf

theorem repeatedOut_answers (d : Word) (s : State) :
    Answers (fun s => .next ((s.blockOut d).repeatIf ((s.blockOut d).main.b != 0))) id 23 s := .repeatIf

/-- Every instruction answers or is refused, at a cost of 4 to 23 T-states, and on the control items it does what
`controlStep` does. -/
theorem exec_answers (i : Instr) (s : State) : Answers (exec i) (controlStep i) 23 s := by
  have hb := execBase_answers i s
  cases i with
  | nop | ldRR | ldRN | ldAMemBc | ldAMemDe | ldAMemNn | exDeHl | addAR | addAN | adcAR | adcAN | subR | subN |
  sbcAR | sbcAN | andR | andN | xorR | xorN | orR | orN | cpR | cpN | incR | decR | daa | cpl | ccf | scf | rlca |
  rrca | rla | rra | jpNn | jrE | ret | inAN | outNA | ldMemBcA | ldMemDeA | ldMemNnA | pushQq | callNn | rstP |
  exAfAf | exx | di | ei | ldDdNn | incSs | decSs | popQq | jpCcNn | jrCcE | djnzE | callCcNn | retCc =>
    exact hb.widen (by decide)
  | prefixIgnored _ base => exact execPrefixIgnored_answers base s
  | rlcMemIdx | rlcMemIdxCopy | rrcMemIdx | rrcMemIdxCopy | rlMemIdx | rlMemIdxCopy | rrMemIdx | rrMemIdxCopy |
  slaMemIdx | slaMemIdxCopy | sraMemIdx | sraMemIdxCopy | sllMemIdx | sllMemIdxCopy | srlMemIdx | srlMemIdxCopy |
  bitMemIdx | resMemIdx | resMemIdxCopy | setMemIdx | setMemIdxCopy | ldIdxNn | ldMemNnIdx | ldIdxMemNn | incIdx |
  decIdx | addIdxPp | incMemIdx | decMemIdx | ldMemIdxN | ldRMemIdx | ldMemIdxR | ldRHalf | addAMemIdx | addAHalf |
  adcAMemIdx | adcAHalf | subMemIdx | subHalf | sbcAMemIdx | sbcAHalf | andMemIdx | andHalf | xorMemIdx | xorHalf |
  orMemIdx | orHalf | cpMemIdx | cpHalf | pushIdx | popIdx | exSpIdx | jpIdx | ldSpIdx | rlcMemHl | rlcR | rrcMemHl
  | rrcR | rlMemHl | rlR | rrMemHl | rrR | slaMemHl | slaR | sraMemHl | sraR | sllMemHl | sllR | srlMemHl | srlR |
  bitMemHl | bitR | resMemHl | resR | setMemHl | setR | inFC | inRC | outCZero | outCR | sbcHlSs | adcHlSs |
  ldMemNnDd | neg | ldAI | ldAR | rrd | rld | ldi | ldd | cpi | cpd | ini | ind | outi | outd | nopEd | ldRMemHl |
  ldMemHlR | ldMemHlN | ldHlMemNn | ldMemNnHl | ldSpHl | exSpHl | addAMemHl | adcAMemHl | subMemHl | sbcAMemHl |
  andMemHl | xorMemHl | orMemHl | cpMemHl | incMemHl | decMemHl | addHlSs | jpHl =>
    exact .quiet rfl
  | incHalf _ k | decHalf _ k | ldHalfN _ k | ldHalfR _ k => cases k <;> exact .quiet rfl
  | ldDdMemNn p => cases p <;> exact .quiet rfl
  | ldir | lddr => exact repeatedLoad_answers _ s
  | cpir | cpdr => exact repeatedCompare_answers _ s
  | inir | indr => exact repeatedIn_answers _ s
  | otir | otdr => exact repeatedOut_answers _ s
  | ldIA | ldRA | im0 | im1 | im2 | halt | haltIgnored | prefixThenIndex | prefixThenEd =>
    exact .inl ⟨_, _, { answer := rfl, same := .refl _ }⟩
  | reti | retn => exact .inl ⟨_, _, { answer := rfl, same := ⟨rfl, id⟩ }⟩

/-! ### What a fetch and an acceptance do to the control items -/

/-- Reading an instruction leaves every control item but the decode state, which is Base at its end. -/
theorem fetchWith_control : ∀ (d : Dec) (s : State),
    (fetchWith d s).2.control = { s.control with decode := .base } ∧ (fetchWith d s).2.main = s.main
  | .done _, _ => ⟨rfl, rfl⟩
  | .unread _, _ => ⟨rfl, rfl⟩
  | .more st k, s => fetchWith_control (k (s.memByte s.pc)) { s.afterRead s.pc with decode := st, pc := s.pc + 1 }

/-- A fetch does not read the T-state counter. -/
theorem fetchWith_atTime (n : Nat) : ∀ (d : Dec) (s : State),
    fetchWith d (s.atTime n) = ((fetchWith d s).1, (fetchWith d s).2.atTime n)
  | .done _, _ => rfl
  | .unread _, _ => rfl
  | .more st k, s => fetchWith_atTime n (k (s.memByte s.pc)) { s.afterRead s.pc with decode := st, pc := s.pc + 1 }

theorem fetch_atTime (n : Nat) (s : State) : fetch (s.atTime n) = ((fetch s).1, (fetch s).2.atTime n) := by
  simp only [fetch, fetchWith_atTime]
  rfl

/-- The effect of an acceptance on the control items, NMI's clearing of its latch apart (60_exceptions.md rules R604,
R605, R610). -/
def State.inHandler (iff2 : Bool) (s : State) : State :=
  ({ s with halted := false, iff1 := false, iff2 := iff2, shadow := .none } : State).incR 1

theorem sameControl_enterHandler (s : State) (e : Bool) (g : State → Word) :
    SameControl (s.inHandler e) (s.enterHandler e g) :=
  ⟨rfl, fun w => Bus.wf_writeByte (Bus.wf_writeByte w)⟩

theorem acceptInt_im0_rst {s : State} (h : s.im = .im0) (hr : isRst s.intAckByte = true) :
    acceptInt s = .next ((s.enterHandler false fun _ => (s.intAckByte &&& 0x38).setWidth 16).cost 13) := by
  rw [acceptInt, h, if_pos hr]

theorem acceptInt_im0_other {s : State} (h : s.im = .im0) (hr : isRst s.intAckByte = false) :
    acceptInt s = .refused (.mode0AckNotRst s.intAckByte) := by
  rw [acceptInt, h, hr, if_neg Bool.false_ne_true]

theorem acceptInt_im1 {s : State} (h : s.im = .im1) :
    acceptInt s = .next ((s.enterHandler false fun _ => 0x0038).cost 13) := by
  rw [acceptInt, h]

theorem acceptInt_im2 {s : State} (h : s.im = .im2) : acceptInt s =
    .next (((s.enterHandler false fun s1 => s1.memWord s.vectorAddress).afterReadWord s.vectorAddress).cost 19) := by
  rw [acceptInt, h]

theorem acceptInt_answers (s : State) : Answers acceptInt (State.inHandler false) 23 s := by
  cases h : s.im with
  | im0 =>
    cases hr : isRst s.intAckByte with
    | true =>
      exact .inl ⟨_, _, { answer := acceptInt_im0_rst h hr, same := sameControl_enterHandler ..
                          timeless := fun n => acceptInt_im0_rst (s := s.atTime n) h hr }⟩
    | false => exact .inr ⟨.mode0AckNotRst s.intAckByte, fun n => acceptInt_im0_other (s := s.atTime n) h hr⟩
  | im1 =>
    exact .inl ⟨_, _, { answer := acceptInt_im1 h, same := sameControl_enterHandler ..
                        timeless := fun n => acceptInt_im1 (s := s.atTime n) h }⟩
  | im2 =>
    exact .inl ⟨_, _, { answer := acceptInt_im2 h
                        same := (sameControl_afterReadWord _).2 (sameControl_enterHandler ..)
                        timeless := fun n => acceptInt_im2 (s := s.atTime n) h }⟩

/-! ### What a step does to the control items -/

/-- The state the instruction of a step starts from: fetched, with nothing inhibited. -/
def State.begun (s : State) : State := (fetch s).2.noShadow

theorem begun_control (s : State) : s.begun.control =
    ({ s.incR (fetch s).1.m1Cycles with decode := .base, shadow := .none } : State).control := by
  have h := (fetchWith_control decStart s).1
  have hr : (fetchWith decStart s).2.r = s.r := congrArg Control.r h
  calc s.begun.control
      = { (fetchWith decStart s).2.control with
          r := ((fetchWith decStart s).2.incR (fetch s).1.m1Cycles).r, shadow := .none } := rfl
    _ = _ := by rw [h, State.incR_r, hr]; rfl

theorem begun_main (s : State) : s.begun.main = s.main := (fetchWith_control decStart s).2

theorem begun_ram (s : State) : s.begun.bus.ram = s.bus.ram := (fetchWith_frame decStart s).2.1

/-- The effect of a step on the control items (rule R603). -/
def stepControl (s : State) : State :=
  if s.takesNmi then { s.inHandler s.iff2 with nmiPending := false }
  else if s.takesInt then s.inHandler false
  else if s.halted then { s.incR 1 with shadow := .none }
  else controlStep (fetch s).1 s.begun

theorem acceptNmi_answers (s : State) :
    Answers (fun s => .next (acceptNmi s)) (fun s => { s.inHandler s.iff2 with nmiPending := false }) 23 s :=
  .inl ⟨_, _, { answer := rfl, same := ⟨rfl, (sameControl_enterHandler s s.iff2 fun _ => 0x0066).ram⟩ }⟩

theorem haltedCycle_answers (s : State) :
    Answers (fun s => .next (haltedCycle s)) (fun s => { s.incR 1 with shadow := .none }) 23 s :=
  .inl ⟨_, _, { answer := rfl, same := ⟨rfl, id⟩ }⟩

theorem begun_answers (s : State) :
    Answers (fun s => exec (fetch s).1 s.begun) (fun s => controlStep (fetch s).1 s.begun) 23 s := by
  have hn (n : Nat) : exec (fetch (s.atTime n)).1 (s.atTime n).begun = exec (fetch s).1 (s.begun.atTime n) := by
    rw [State.begun, fetch_atTime]
    rfl
  obtain ⟨u, k, hk⟩ | ⟨q, hq⟩ := exec_answers (fetch s).1 s.begun
  · exact .inl ⟨u, k, { hk with timeless := fun n => (hn n).trans (hk.timeless n) }⟩
  · exact .inr ⟨q, fun n => (hn n).trans (hq n)⟩

/-- Every step answers or refuses, at a cost of 4 to 23 T-states, and on the control items it does what `stepControl`
does. -/
theorem step_answers (s : State) : Answers step stepControl 23 s :=
  .ite (fun _ => rfl) (acceptNmi_answers s) <| .ite (fun _ => rfl) (acceptInt_answers s) <|
    .ite (fun _ => rfl) (haltedCycle_answers s) (begun_answers s)

/-- The next state of a step. -/
theorem step_next {s t : State} (h : step s = .next t) : ∃ u k, Charges step stepControl 23 s u k ∧ t = u.cost k := by
  obtain ⟨u, k, hk⟩ | ⟨q, hq⟩ := step_answers s
  · exact ⟨u, k, hk, Host.Outcome.next.inj (h.symm.trans hk.answer)⟩
  · exact nomatch h.symm.trans (hq s.tstates)

/-! ### Who writes which control item -/

/-- The effect of an instruction on the control items writes no input, not the decode state and no item of the bus
owner. -/
theorem controlStep_inputs (i : Instr) (s : State) :
    (controlStep i s).intLine = s.intLine ∧ (controlStep i s).intAckByte = s.intAckByte ∧
      (controlStep i s).nmiPending = s.nmiPending ∧ (controlStep i s).decode = s.decode ∧
      (controlStep i s).tstates = s.tstates ∧ (controlStep i s).eiDelay = s.eiDelay ∧
      (controlStep i s).bus = s.bus := by
  unfold controlStep controlStepBase
  repeat' split
  all_goals exact ⟨rfl, rfl, rfl, rfl, rfl, rfl, rfl⟩

theorem controlStep_i (i : Instr) (s : State) :
    (controlStep i s).i = s.i ∨ i = .ldIA ∧ (controlStep i s).i = s.main.a := by
  unfold controlStep controlStepBase
  repeat' split
  all_goals simp [State.swapAf, State.swapBanks, State.enableInterrupts]

theorem controlStep_r (i : Instr) (s : State) :
    i ≠ .ldRA ∧ (controlStep i s).r = s.r ∨ i = .ldRA ∧ (controlStep i s).r = s.main.a := by
  unfold controlStep controlStepBase
  repeat' split
  all_goals simp_all [State.swapAf, State.swapBanks, State.enableInterrupts]

theorem controlStep_im (i : Instr) (s : State) :
    (controlStep i s).im = s.im ∨ (∃ y, i = .im0 y) ∧ (controlStep i s).im = .im0 ∨
      (∃ y, i = .im1 y) ∧ (controlStep i s).im = .im1 ∨ (∃ y, i = .im2 y) ∧ (controlStep i s).im = .im2 := by
  unfold controlStep controlStepBase
  repeat' split
  all_goals simp [State.swapAf, State.swapBanks, State.enableInterrupts]

theorem controlStep_alt (i : Instr) (s : State) :
    (controlStep i s).alt = s.alt ∨ i = .exAfAf ∨ i = .exx ∨
      ∃ x, i = .prefixIgnored x .exAfAf ∨ i = .prefixIgnored x .exx := by
  unfold controlStep controlStepBase
  repeat' split
  all_goals simp [State.enableInterrupts]

theorem controlStep_iff (i : Instr) (s : State) :
    ((controlStep i s).iff1 = s.iff1 ∧ (controlStep i s).iff2 = s.iff2) ∨
      i = .di ∨ i = .ei ∨ i = .reti ∨ (∃ y, i = .retn y) ∨
        ∃ x, i = .prefixIgnored x .di ∨ i = .prefixIgnored x .ei := by
  unfold controlStep controlStepBase
  repeat' split
  all_goals simp [State.swapAf, State.swapBanks]

theorem controlStep_halted (i : Instr) (s : State) :
    (controlStep i s).halted = s.halted ∨ i = .halt ∨ ∃ x, i = .haltIgnored x := by
  unfold controlStep controlStepBase
  repeat' split
  all_goals simp [State.swapAf, State.swapBanks, State.enableInterrupts]

/-- An instruction of a core that is not halted and inhibits nothing keeps the invariant. -/
theorem controlStep_inv {s : State} (h : s.Inv) (hh : s.halted = false) (hs : s.shadow = .none) (i : Instr) :
    (controlStep i s).Inv := by
  obtain ⟨ram, decode, backup, halted, afterEi⟩ := h
  unfold controlStep controlStepBase
  repeat' split
  all_goals constructor <;> simp_all [State.swapAf, State.swapBanks, State.enableInterrupts]

/-- The four kinds of step (60_exceptions.md rule R603), and what each does to the control items. -/
theorem stepControl_cases (s : State) :
    (s.takesNmi = true ∧ s.runsInstruction = false ∧
        stepControl s = { s.inHandler s.iff2 with nmiPending := false }) ∨
      (s.takesNmi = false ∧ s.takesInt = true ∧ s.runsInstruction = false ∧ stepControl s = s.inHandler false) ∨
      (s.takesNmi = false ∧ s.halted = true ∧ s.runsInstruction = false ∧
        stepControl s = { s.incR 1 with shadow := .none }) ∨
      (s.takesNmi = false ∧ s.halted = false ∧ s.runsInstruction = true ∧
        stepControl s = controlStep (fetch s).1 s.begun) := by
  unfold stepControl State.runsInstruction
  cases s.takesNmi <;> cases s.takesInt <;> cases s.halted <;> simp

section Step

variable {s t : State}

/-- Of the control items a next state has those of `stepControl`, but for the cost. -/
theorem step_control (h : step s = .next t) : ∃ k, t.control = ((stepControl s).cost k).control := by
  obtain ⟨u, k, hk, rfl⟩ := step_next h
  exact ⟨k, congrArg (fun c : Control => { c with tstates := c.tstates + k }) hk.same.control⟩

theorem AdvancesR.of_r_eq {u : State} {k : Nat} (h : AdvancesR k s u) (e : t.r = u.r) : AdvancesR k s t := by
  rw [AdvancesR, e]
  exact h

/-- The invariant is about control items and RAM. -/
theorem State.Inv.of_control (h : s.Inv) (hc : t.control = s.control) (hr : t.CanonicalRam) : t.Inv := by
  simp only [State.control, Control.mk.injEq] at hc
  obtain ⟨ram, decode, backup, halted, afterEi⟩ := h
  constructor <;> simp_all [State.CanonicalRam]

theorem begun_inv (h : s.Inv) : s.begun.Inv := by
  have hw : ({ s.incR (fetch s).1.m1Cycles with decode := .base, shadow := .none } : State).Inv :=
    ⟨h.ram, rfl, h.backup, fun _ => rfl, nofun⟩
  exact hw.of_control (begun_control s) ((congrArg Memory.wf (begun_ram s)).trans h.ram)

theorem State.Inv.cost (h : s.Inv) (k : Nat) : (s.cost k).Inv := ⟨h.ram, h.decode, h.backup, h.halted, h.afterEi⟩

theorem stepControl_inv (h : s.Inv) : (stepControl s).Inv := by
  obtain ⟨-, -, e⟩ | ⟨-, -, -, e⟩ | ⟨-, -, -, e⟩ | ⟨-, hh, -, e⟩ := stepControl_cases s <;> rw [e]
  · exact ⟨h.ram, h.decode, nofun, nofun, nofun⟩
  · exact ⟨h.ram, h.decode, nofun, nofun, nofun⟩
  · exact ⟨h.ram, h.decode, h.backup, fun _ => rfl, nofun⟩
  · have hc := begun_control s
    exact controlStep_inv (begun_inv h) ((congrArg Control.halted hc).trans hh) (congrArg Control.shadow hc) _

/-- I, the interrupt mode and the shadow registers are as before a step, or the step ran an instruction, and they are as
it leaves them. -/
theorem step_i_im_alt (h : step s = .next t) : (t.i = s.i ∧ t.im = s.im ∧ t.alt = s.alt) ∨
    s.runsInstruction = true ∧ t.i = (controlStep (fetch s).1 s.begun).i ∧
      t.im = (controlStep (fetch s).1 s.begun).im ∧ t.alt = (controlStep (fetch s).1 s.begun).alt := by
  obtain ⟨k, hc⟩ := step_control h
  obtain ⟨-, -, e⟩ | ⟨-, -, -, e⟩ | ⟨-, -, -, e⟩ | ⟨-, -, hr, e⟩ := stepControl_cases s <;> rw [e] at hc
  · exact .inl ⟨congrArg Control.i hc, congrArg Control.im hc, congrArg Control.alt hc⟩
  · exact .inl ⟨congrArg Control.i hc, congrArg Control.im hc, congrArg Control.alt hc⟩
  · exact .inl ⟨congrArg Control.i hc, congrArg Control.im hc, congrArg Control.alt hc⟩
  · exact .inr ⟨hr, congrArg Control.i hc, congrArg Control.im hc, congrArg Control.alt hc⟩

/-- A step that accepts a request ends not halted; after another one the enable flags and the halted state are those
before it, or as the instruction it ran leaves them. -/
theorem step_flags (h : step s = .next t) : ((s.takesNmi = true ∨ s.takesInt = true) ∧ t.halted = false) ∨
    (t.iff1 = s.iff1 ∧ t.iff2 = s.iff2 ∧ t.halted = s.halted) ∨
    s.halted = false ∧ s.runsInstruction = true ∧ t.iff1 = (controlStep (fetch s).1 s.begun).iff1 ∧
      t.iff2 = (controlStep (fetch s).1 s.begun).iff2 ∧ t.halted = (controlStep (fetch s).1 s.begun).halted := by
  obtain ⟨k, hc⟩ := step_control h
  obtain ⟨hn, -, e⟩ | ⟨-, hi, -, e⟩ | ⟨-, -, -, e⟩ | ⟨-, h0, hr, e⟩ := stepControl_cases s <;> rw [e] at hc
  · exact .inl ⟨.inl hn, congrArg Control.halted hc⟩
  · exact .inl ⟨.inr hi, congrArg Control.halted hc⟩
  · exact .inr (.inl ⟨congrArg Control.iff1 hc, congrArg Control.iff2 hc, congrArg Control.halted hc⟩)
  · exact .inr (.inr ⟨h0, hr, congrArg Control.iff1 hc, congrArg Control.iff2 hc, congrArg Control.halted hc⟩)

/-- `stepControl` writes no input, no item of the bus owner and not the T-state counter, and only the acceptance of an
NMI clears the latch. -/
theorem stepControl_inputs (s : State) : (stepControl s).intLine = s.intLine ∧
    (stepControl s).intAckByte = s.intAckByte ∧ (stepControl s).eiDelay = s.eiDelay ∧
    SameOwner s (stepControl s) ∧ (stepControl s).nmiPending = (s.nmiPending && !s.takesNmi) ∧
    (stepControl s).tstates = s.tstates := by
  obtain ⟨hn, -, e⟩ | ⟨hn, -, -, e⟩ | ⟨hn, -, -, e⟩ | ⟨hn, -, -, e⟩ := stepControl_cases s <;> rw [e, hn]
  · exact ⟨rfl, rfl, rfl, ⟨rfl, rfl⟩, (Bool.and_false _).symm, rfl⟩
  · exact ⟨rfl, rfl, rfl, ⟨rfl, rfl⟩, (Bool.and_true _).symm, rfl⟩
  · exact ⟨rfl, rfl, rfl, ⟨rfl, rfl⟩, (Bool.and_true _).symm, rfl⟩
  · have hc := begun_control s
    obtain ⟨hl, hb, hp, -, ht, hd, ho⟩ := controlStep_inputs (fetch s).1 s.begun
    exact ⟨hl.trans (congrArg Control.intLine hc), hb.trans (congrArg Control.intAckByte hc),
      hd.trans (congrArg Control.eiDelay hc),
      ⟨(congrArg Bus.foreign ho).trans (congrArg Control.foreign hc),
        (congrArg Bus.ports ho).trans (congrArg Control.ports hc)⟩,
      (hp.trans (congrArg Control.nmiPending hc)).trans (Bool.and_true _).symm,
      ht.trans (congrArg Control.tstates hc)⟩

end Step

/-- Settles O13: `stepControl` keeps the invariant in each of the four kinds of step, and the next state has its control
items and canonical RAM. -/
theorem stepKeepsInvariant : Obligations.StepKeepsInvariant := by
  intro s t hs h
  obtain ⟨u, k, hk, rfl⟩ := step_next h
  have hc := stepControl_inv hs
  exact (hc.of_control hk.same.control (hk.same.ram hc.ram)).cost k

/-- Settles O16: only an instruction can change I, and of the instructions only LD I,A does. -/
theorem onlyLdIAWritesI : Obligations.OnlyLdIAWritesI := by
  intro s t h hne
  obtain ⟨hi, him, ha⟩ | ⟨hr, hi, him, ha⟩ := step_i_im_alt h
  · exact absurd hi hne
  · obtain hw | ⟨hw, hwa⟩ := controlStep_i (fetch s).1 s.begun
    · exact absurd (hi.trans (hw.trans (congrArg Control.i (begun_control s)))) hne
    · exact ⟨hr, hw, hi.trans (hwa.trans (congrArg RegBank.a (begun_main s)))⟩

/-- Settles O17: a fetch and an acceptance advance R alike, and of the instructions only LD R,A writes it. -/
theorem refreshCountsM1Cycles : Obligations.RefreshCountsM1Cycles := by
  intro s t h
  obtain ⟨k, hc⟩ := step_control h
  have ht : t.r = (stepControl s).r := congrArg Control.r hc
  have other (hr : s.runsInstruction = false) (e : (stepControl s).r = (s.incR 1).r) :
      (s.runsInstruction = false → AdvancesR 1 s t) ∧
      (s.runsInstruction = true → (fetch s).1 ≠ .ldRA → AdvancesR (fetch s).1.m1Cycles s t) ∧
      (s.runsInstruction = true → (fetch s).1 = .ldRA → t.r = s.main.a) := by
    simp only [hr, Bool.false_eq_true, false_implies, and_true, true_implies]
    exact (s.incR_advances 1).of_r_eq (ht.trans e)
  obtain ⟨-, hr, e⟩ | ⟨-, -, hr, e⟩ | ⟨-, -, hr, e⟩ | ⟨-, -, hr, e⟩ := stepControl_cases s
  · exact other hr (by rw [e]; rfl)
  · exact other hr (by rw [e]; rfl)
  · exact other hr (by rw [e])
  · rw [e] at ht
    simp only [hr, Bool.true_eq_false, false_implies, true_implies, true_and]
    obtain ⟨hw, hi⟩ | ⟨hw, ha⟩ := controlStep_r (fetch s).1 s.begun
    · exact ⟨fun _ => (fetch_advances s).of_r_eq (ht.trans hi), fun h => absurd h hw⟩
    · exact ⟨fun h => absurd hw h, fun _ => by rw [ht, ha, begun_main]⟩

/-- Settles O18: only an instruction can change the mode, and of the instructions only the IM ones do. -/
theorem onlyImWritesTheMode : Obligations.OnlyImWritesTheMode := by
  intro s t h hne
  obtain ⟨hi, him, ha⟩ | ⟨hr, hi, him, ha⟩ := step_i_im_alt h
  · exact absurd him hne
  · obtain hw | hw := controlStep_im (fetch s).1 s.begun
    · exact absurd (him.trans (hw.trans (congrArg Control.im (begun_control s)))) hne
    · exact ⟨hr, him ▸ hw⟩

/-- Settles O19: only an instruction can change the shadow registers, and of the instructions only the exchanges do. -/
theorem onlyExchangesReachTheShadowSet : Obligations.OnlyExchangesReachTheShadowSet := by
  intro s t h hne
  obtain ⟨hi, him, ha⟩ | ⟨hr, hi, him, ha⟩ := step_i_im_alt h
  · exact absurd ha hne
  · obtain hw | hw := controlStep_alt (fetch s).1 s.begun
    · exact absurd (ha.trans (hw.trans (congrArg Control.alt (begun_control s)))) hne
    · exact ⟨hr, hw⟩

/-- Settles O20: the inputs are control items, and `stepControl` writes none but the NMI latch. -/
theorem stepNeverWritesTheInputs : Obligations.StepNeverWritesTheInputs := by
  intro s t h
  obtain ⟨k, hc⟩ := step_control h
  obtain ⟨hl, hb, hd, ⟨hf, hp⟩, hn, -⟩ := stepControl_inputs s
  exact ⟨(congrArg Control.intLine hc).trans hl, (congrArg Control.intAckByte hc).trans hb,
    (congrArg Control.eiDelay hc).trans hd,
    ⟨(congrArg Control.foreign hc).trans hf, (congrArg Control.ports hc).trans hp⟩,
    (congrArg Control.nmiPending hc).trans hn⟩

/-- Settles O21, by what acceptances, halted cycles and instructions do to the flags (`step_flags`). -/
theorem controlFlagsHaveFewWriters : Obligations.ControlFlagsHaveFewWriters := by
  refine ⟨fun s t h hne => ?_, fun s t h h0 h1 => ?_, fun s t h h1 h0 => ?_⟩
  · obtain ⟨hn | hi, -⟩ | ⟨e1, e2, -⟩ | ⟨-, hr, e1, e2, -⟩ := step_flags h
    · exact .inl hn
    · exact .inr (.inl hi)
    · exact absurd e2 (hne.resolve_left (not_not_intro e1))
    · obtain ⟨w1, w2⟩ | hw := controlStep_iff (fetch s).1 s.begun
      · have b1 : s.begun.iff1 = s.iff1 := congrArg Control.iff1 (begun_control s)
        have b2 : s.begun.iff2 = s.iff2 := congrArg Control.iff2 (begun_control s)
        exact absurd (e2.trans (w2.trans b2)) (hne.resolve_left (not_not_intro (e1.trans (w1.trans b1))))
      · exact .inr (.inr ⟨hr, hw⟩)
  · obtain ⟨-, e⟩ | ⟨-, -, e⟩ | ⟨-, hr, -, -, e⟩ := step_flags h
    · exact absurd (e.symm.trans h1) Bool.false_ne_true
    · exact absurd (h0.symm.trans (e.symm.trans h1)) Bool.false_ne_true
    · obtain hw | hw := controlStep_halted (fetch s).1 s.begun
      · have b : s.begun.halted = s.halted := congrArg Control.halted (begun_control s)
        exact absurd (h0.symm.trans (b.symm.trans (hw.symm.trans (e.symm.trans h1)))) Bool.false_ne_true
      · exact ⟨hr, hw⟩
  · obtain ⟨ha, -⟩ | ⟨-, -, e⟩ | ⟨hh, -⟩ := step_flags h
    · exact ha
    · exact absurd (h0.symm.trans (e.trans h1)) Bool.false_ne_true
    · exact absurd (hh.symm.trans h1) Bool.false_ne_true

/-- Settles O22: `step_answers` says of every step that it costs 4 to 23 T-states and does not read the counter. -/
theorem stepIsIndependentOfTime : Obligations.StepIsIndependentOfTime := by
  refine ⟨fun s t n h => ?_, fun s q n h => ?_⟩
  · obtain ⟨u, k, hk, rfl⟩ := step_next h
    obtain ⟨-, -, -, -, -, ht⟩ := stepControl_inputs s
    have hu : u.tstates = s.tstates := (congrArg Control.tstates hk.same.control).trans ht
    have hl := hk.least
    have hm := hk.most
    refine ⟨?_, ?_, (hk.timeless n).trans ?_⟩
    · rw [State.cost_tstates]; omega
    · rw [State.cost_tstates]; omega
    · rw [State.cost_tstates, hu, Nat.add_sub_cancel_left]; rfl
  · obtain ⟨u, k, hk⟩ | ⟨q', hq⟩ := step_answers s
    · exact nomatch h.symm.trans hk.answer
    · exact (hq n).trans ((hq s.tstates).symm.trans h)

end Sys2Proof.Machine

/-! Memory (20_memory.md): the canonical form of RAM, words, the stack, and the bus calls a step makes. -/

namespace Sys2Proof.Machine

/-! ### RAM is what it reads as -/

/-- A cell of canonical RAM holds what a read at its address gives. -/
theorem Memory.read_head {k : Nat} {v : Byte} {m : List Host.Cell} : Memory.read ((k, v) :: m) k = v :=
  if_pos rfl

/-- Canonical RAM that reads the same begins at the same address. -/
theorem Memory.head_le_of_read_eq {n k k' : Nat} {v : Byte} {m m' : List Host.Cell}
    (hm : Memory.wfFrom n ((k, v) :: m) = true) (hm' : Memory.wfFrom k' m' = true)
    (h : Memory.read ((k, v) :: m) k = Memory.read m' k) : k' ≤ k := by
  obtain ⟨-, -, hv, -⟩ := Memory.wfFrom_cons.1 hm
  refine Nat.le_of_not_lt fun hk => hv ?_
  rw [← Memory.read_head (k := k) (v := v) (m := m), h, Memory.read_below hm' hk]

/-- A canonical list of cells is not empty where it reads as something written. -/
theorem Memory.read_cons_ne_nil {n k : Nat} {v : Byte} {m : List Host.Cell}
    (hm : Memory.wfFrom n ((k, v) :: m) = true) :
    Memory.read ((k, v) :: m) k ≠ Memory.read [] k := by
  obtain ⟨-, -, hv, -⟩ := Memory.wfFrom_cons.1 hm
  rwa [Memory.read_head]

/-- Canonical RAM that reads the same in the address space is the same list of cells. -/
theorem Memory.eq_of_read_eq : ∀ {m m' : List Host.Cell} {n n' : Nat}, Memory.wfFrom n m = true →
    Memory.wfFrom n' m' = true → (∀ a, a < 65536 → Memory.read m a = Memory.read m' a) → m = m'
  | [], [], _, _, _, _, _ => rfl
  | [], (k, _) :: _, _, _, _, hm', h =>
    absurd (h k (Memory.wfFrom_cons.1 hm').2.1).symm (Memory.read_cons_ne_nil hm')
  | (k, _) :: _, [], _, _, hm, _, h => absurd (h k (Memory.wfFrom_cons.1 hm).2.1) (Memory.read_cons_ne_nil hm)
  | (k, v) :: m, (k', v') :: m', n, n', hm, hm', h => by
    obtain ⟨-, hk, hv, ht⟩ := Memory.wfFrom_cons.1 hm
    obtain ⟨-, hk', hv', ht'⟩ := Memory.wfFrom_cons.1 hm'
    have e : k = k' := Nat.le_antisymm
      (Memory.head_le_of_read_eq hm' (Memory.wfFrom_cons.2 ⟨le_rfl, hk, hv, ht⟩) (h k' hk').symm)
      (Memory.head_le_of_read_eq hm (Memory.wfFrom_cons.2 ⟨le_rfl, hk', hv', ht'⟩) (h k hk))
    subst e
    have ev : v = v' := by simpa [Memory.read] using h k hk
    have et : m = m' := by
      refine Memory.eq_of_read_eq ht ht' fun a ha => ?_
      obtain hlt | hle := Nat.lt_or_ge k a
      · simpa [Memory.read, hlt.ne] using h a ha
      · rw [Memory.read_below ht (Nat.lt_succ_of_le hle), Memory.read_below ht' (Nat.lt_succ_of_le hle)]
    rw [ev, et]

/-- Settles O24: canonical lists that read the same have the same first cell, and their tails read the same. -/
theorem equalReadsAreEqualRam : Obligations.EqualReadsAreEqualRam := by
  refine ⟨fun m m' hm hm' => Memory.eq_of_read_eq hm hm', fun m a b v w hm ha hb hab => ⟨?_, ?_⟩⟩
  · have hav := Memory.wf_write (v := v) hm ha
    have hbw := Memory.wf_write (v := w) hm hb
    refine Memory.eq_of_read_eq (Memory.wf_write hav hb) (Memory.wf_write hbw ha) fun c _ => ?_
    rw [Memory.read_write c hav, Memory.read_write c hm, Memory.read_write c hbw, Memory.read_write c hm]
    by_cases hc : c = a <;> simp [hc, hab]
  · have hav := Memory.wf_write (v := v) hm ha
    refine Memory.eq_of_read_eq (Memory.wf_write hav ha) hm fun c _ => ?_
    rw [Memory.read_write c hav, Memory.read_write c hm]
    by_cases hc : c = a <;> simp [hc]

/-! ### Words and the stack on plain RAM -/

/-- On plain RAM a read of a word gives the word that lies there. -/
theorem State.memWord_plain {s : State} {a : Word} (h : s.bus.isForeign a = false)
    (h' : s.bus.isForeign (a + 1) = false) : s.memWord a = s.bus.ramWord a :=
  congrArg₂ w16 (Bus.memAnswer_plain (b := s.bus.called _) h') (Bus.memAnswer_plain h)

/-- The word whose halves lie at an address and the next. -/
theorem Bus.ramWord_eq {b : Bus} {a v : Word} (hl : b.ramByte a = lo v) (hh : b.ramByte (a + 1) = hi v) :
    b.ramWord a = v := by
  rw [Bus.ramWord, hl, hh, w16_hi_lo]

/-- Settles O25: the calls are those of the definitions, and what is stored is what `memWriteWord_within` says. -/
theorem wordStoreThenLoad : Obligations.WordStoreThenLoad := by
  refine ⟨fun s a v => ⟨rfl, rfl, rfl⟩, fun s a v hw hf hf' => ?_⟩
  obtain ⟨⟨-, -, hkeep, -, -⟩, hlow, hhigh⟩ := State.memWriteWord_within hw a v
  have hword : (s.memWriteWord a v).bus.ramWord a = v := Bus.ramWord_eq (hlow hf) (hhigh hf')
  exact ⟨(State.memWord_plain (s := s.memWriteWord a v) hf hf').trans hword, hlow hf, hhigh hf', hkeep⟩

/-- Settles O26: the calls are those of the definitions, and what a push leaves is what `push16_within` says. -/
theorem popAfterPush : Obligations.PopAfterPush := by
  refine ⟨fun s v => ⟨rfl, rfl, rfl, rfl, rfl⟩, fun s v hw hf hf' => ?_⟩
  obtain ⟨-, hsp, hhigh, hlow⟩ := State.push16_within hw v
  have e : s.sp - 2 + 1 = s.sp - 1 := by bv_omega
  have hword : (s.push16 v).bus.ramWord (s.sp - 2) = v := Bus.ramWord_eq (hlow hf') (e ▸ hhigh hf)
  have hload : (s.push16 v).memWord (s.sp - 2) = v :=
    (State.memWord_plain (s := s.push16 v) hf' (e ▸ hf)).trans hword
  exact ⟨hword, hload, BitVec.sub_add_cancel ..⟩

end Sys2Proof.Machine

/-! ### The bus calls of a decode (30_encoding.md rule R150) -/

namespace Sys2Proof

/-- How many bus calls an instruction makes at most after its fetch. -/
def Instr.mostCalls : Instr → Nat
  | .exSpHl | .exSpIdx _ => 4
  | _ => 2

@[simp] theorem Instr.mostCalls_eq_two {i : Instr} (h : i ≠ .exSpHl) (h' : ∀ x, i ≠ .exSpIdx x) :
    i.mostCalls = 2 := by
  unfold Instr.mostCalls
  split
  · exact absurd rfl h
  · exact absurd rfl (h' _)
  · rfl

theorem Instr.mostCalls_le (i : Instr) : i.mostCalls ≤ 4 := by
  unfold Instr.mostCalls
  split <;> decide

@[simp] theorem Instr.mostCalls_le_add (i : Instr) (n : Nat) : i.mostCalls ≤ n + 4 :=
  i.mostCalls_le.trans (Nat.le_add_left 4 n)

/-- The bytes a decode still reads and the calls of the instruction it comes to are n at most. -/
def Dec.Fits (n : Nat) : Dec → Prop
  | .done i | .unread i => i.mostCalls ≤ n
  | .more _ k => 0 < n ∧ ∀ b, (k b).Fits (n - 1)

@[simp] theorem Dec.fits_done {n : Nat} {i : Instr} : (Dec.done i).Fits n ↔ i.mostCalls ≤ n := .rfl
@[simp] theorem Dec.fits_unread {n : Nat} {i : Instr} : (Dec.unread i).Fits n ↔ i.mostCalls ≤ n := .rfl
@[simp] theorem Dec.fits_more {n : Nat} {st : DecodeState} {k : Byte → Dec} :
    (Dec.more st k).Fits (n + 1) ↔ ∀ b, (k b).Fits n := and_iff_right n.succ_pos
@[simp] theorem Dec.fits_imm8 {n : Nat} {st : DecodeState} {f : Byte → Instr} :
    (Dec.imm8 st f).Fits (n + 1) ↔ ∀ b, (f b).mostCalls ≤ n := Dec.fits_more
@[simp] theorem Dec.fits_imm16 {n : Nat} {st : DecodeState} {f : Word → Instr} :
    (Dec.imm16 st f).Fits (n + 2) ↔ ∀ l h, (f (Machine.w16 h l)).mostCalls ≤ n := by simp [Dec.imm16]

theorem Dec.Fits.mono : ∀ {d : Dec} {m n : Nat}, d.Fits m → m ≤ n → d.Fits n
  | .done _, _, _, h, hmn | .unread _, _, _, h, hmn => le_trans h hmn
  | .more _ _, _, _, h, hmn =>
    ⟨Nat.lt_of_lt_of_le h.1 hmn, fun b => (h.2 b).mono (Nat.sub_le_sub_right hmn 1)⟩

/-- What the opcode map marks its instructions with: nothing, or an ignored index byte (30_encoding.md rule R159). -/
def Marks (wrap : Instr → Instr) : Prop := wrap = id ∨ ∃ x, wrap = .prefixIgnored x

@[simp] theorem aluN_mostCalls (y : BitVec 3) (n : Byte) : (aluN y n).mostCalls = 2 := by
  unfold aluN
  split <;> rfl

@[simp] theorem aluMemIdx_mostCalls (y : BitVec 3) (x : Idx) (d : Byte) : (aluMemIdx y x d).mostCalls = 2 := by
  unfold aluMemIdx
  split <;> rfl

@[simp] theorem decIdxCb_mostCalls (x : Idx) (d op : Byte) : (decIdxCb x d op).mostCalls = 2 := by
  simp only [decIdxCb, rotMemIdx, rotMemIdxCopy]
  repeat' split
  all_goals rfl

theorem baseX0_fits {wrap : Instr → Instr} (hw : Marks wrap) (st : DecodeState) (y z : BitVec 3) (n : Nat) :
    (baseX0 st wrap y z).Fits (n + 4) := by
  obtain rfl | ⟨x, rfl⟩ := hw
  all_goals
    unfold baseX0
    repeat' split
    all_goals simp

theorem baseX1_fits (wrap : Instr → Instr) (y z : BitVec 3) : (baseX1 wrap y z).Fits 4 := by
  unfold baseX1
  split
  all_goals exact Instr.mostCalls_le _

theorem baseX2_fits (wrap : Instr → Instr) (y z : BitVec 3) : (baseX2 wrap y z).Fits 4 := by
  unfold baseX2
  split
  all_goals exact Instr.mostCalls_le _

section OpcodeMap

variable {onCb onDd onEd onFd : Dec} {n : Nat} (hc : onCb.Fits (n + 4)) (hd : onDd.Fits (n + 4))
  (he : onEd.Fits (n + 4)) (hf : onFd.Fits (n + 4)) {wrap : Instr → Instr} (hw : Marks wrap) (st : DecodeState)
include hc hd he hf hw

theorem baseX3_fits (y z : BitVec 3) : (baseX3 onCb onDd onEd onFd st wrap y z).Fits (n + 4) := by
  obtain rfl | ⟨x, rfl⟩ := hw
  all_goals
    unfold baseX3
    repeat' split
    all_goals simp [hc, hd, he, hf]

/-- The opcode map, with at least four calls left after an opcode of it. -/
theorem decBase_fits (op : Byte) : (decBase onCb onDd onEd onFd st wrap op).Fits (n + 4) := by
  unfold decBase
  split
  · exact baseX0_fits hw st _ _ n
  · exact (baseX1_fits wrap _ _).mono (Nat.le_add_left 4 n)
  · exact (baseX2_fits wrap _ _).mono (Nat.le_add_left 4 n)
  · exact baseX3_fits hc hd he hf hw st _ _

end OpcodeMap

theorem idxX0_fits (x : Idx) (y z : BitVec 3) : ∀ d ∈ idxX0 x y z, d.Fits 4 := by
  unfold idxX0
  repeat' split
  all_goals simp

theorem idxX1_fits (x : Idx) (y z : BitVec 3) : ∀ d ∈ idxX1 x y z, d.Fits 4 := by
  unfold idxX1
  repeat' split
  all_goals simp

theorem idxX2_fits (x : Idx) (y z : BitVec 3) : ∀ d ∈ idxX2 x y z, d.Fits 4 := by
  unfold idxX2
  split
  all_goals simp

theorem idxX3_fits (x : Idx) (y z : BitVec 3) : ∀ d ∈ idxX3 x y z, d.Fits 4 := by
  unfold idxX3
  split
  all_goals simp

theorem idxChanged_fits (x : Idx) (op : Byte) : ∀ d ∈ idxChanged x op, d.Fits 4 := by
  unfold idxChanged
  split
  · exact idxX0_fits x _ _
  · exact idxX1_fits x _ _
  · exact idxX2_fits x _ _
  · exact idxX3_fits x _ _

/-- After an index byte and an opcode at least four calls are left. -/
theorem decIdx_fits (x : Idx) (op : Byte) : (decIdx x op).Fits 4 := by
  unfold decIdx
  split
  · exact idxChanged_fits x op _ ‹_›
  · exact decBase_fits (n := 0) (by simp) (by simp) (by simp) (by simp) (.inr ⟨x, rfl⟩) _ op

theorem edX1_fits (op : Byte) (y z : BitVec 3) : (edX1 op y z).Fits 4 := by
  unfold edX1
  repeat' split
  all_goals simp

theorem decEd_fits (op : Byte) : (decEd op).Fits 4 := by
  unfold decEd
  split
  · exact edX1_fits op _ _
  · dsimp only
    split <;> exact Instr.mostCalls_le _
  · exact Instr.mostCalls_le _

/-- The bytes of an instruction and the calls it makes are six at most. -/
theorem decStart_fits : decStart.Fits 6 :=
  Dec.fits_more.2 fun b => decBase_fits (n := 1) (by simp) (Dec.fits_more.2 (decIdx_fits .ix))
    (Dec.fits_more.2 decEd_fits) (Dec.fits_more.2 (decIdx_fits .iy)) (.inl rfl) _ b

end Sys2Proof

namespace Sys2Proof.Machine

/-! ### Bus calls in a row (20_memory.md rules R100, R102) -/

/-- The bus owner after a number of calls of the core. -/
inductive Bus.Calls (b : Bus) : Nat → Bus → Prop
  | none : b.Calls 0 b
  /-- A call that changes no RAM. -/
  | called {n : Nat} {c : Bus} {x : BusCall} (h : b.Calls n c) : b.Calls (n + 1) (c.called x)
  /-- `writeByte(a, v)`. -/
  | write {n : Nat} {c : Bus} {a : Word} {v : Byte} (h : b.Calls n c) : b.Calls (n + 1) (c.writeByte a v)

section Calls

variable {b c d : Bus} {m n : Nat}

theorem Bus.Calls.trans (h : b.Calls m c) (h' : c.Calls n d) : b.Calls (m + n) d := by
  induction h' with
  | none => exact h
  | called _ ih => exact .called ih
  | write _ ih => exact .write ih

theorem Bus.Calls.canonical (h : b.Calls n c) (hw : Memory.wf b.ram = true) : Memory.wf c.ram = true := by
  induction h with
  | none => exact hw
  | called _ ih => exact ih
  | write _ ih => exact Bus.wf_writeByte ih

theorem Bus.Calls.isForeign_eq (h : b.Calls n c) (a : Word) : c.isForeign a = b.isForeign a := by
  induction h with
  | none => rfl
  | called _ ih => exact ih
  | write _ ih => exact ih

/-- The calls stand in the log, and a byte of RAM that differs was written by one of them. -/
theorem Bus.Calls.log_and_writes (h : b.Calls n c) (hw : Memory.wf b.ram = true) : ∃ calls : List BusCall,
    c.log = calls ++ b.log ∧ calls.length = n ∧
      ∀ a, c.ramByte a ≠ b.ramByte a → b.isForeign a = false ∧ BusCall.writeByte a (c.ramByte a) ∈ calls := by
  induction h with
  | none => exact ⟨[], rfl, rfl, fun a h => absurd rfl h⟩
  | @called n c x h ih =>
    obtain ⟨calls, hl, hn, hb⟩ := ih
    exact ⟨x :: calls, congrArg (x :: ·) hl, congrArg (· + 1) hn, fun a ha =>
      ⟨(hb a ha).1, List.mem_cons_of_mem _ (hb a ha).2⟩⟩
  | @write n c a v h ih =>
    obtain ⟨calls, hl, hn, hb⟩ := ih
    refine ⟨.writeByte a v :: calls, congrArg (_ :: ·) hl, congrArg (· + 1) hn, fun a' ha => ?_⟩
    rw [Bus.ramByte_writeByte (h.canonical hw)] at ha ⊢
    split_ifs at ha ⊢ with hc
    · obtain ⟨rfl, hf⟩ := hc
      exact ⟨(h.isForeign_eq a').symm.trans hf, List.mem_cons_self⟩
    · exact ⟨(hb a' ha).1, List.mem_cons_of_mem _ (hb a' ha).2⟩

end Calls

/-! ### The bus calls of an instruction -/

/-- The next state, where there is one, is n bus calls away at most. -/
def Result.CallsAtMost (n : Nat) (b : Bus) : Result → Prop
  | .next t => ∃ k, k ≤ n ∧ b.Calls k t.bus
  | _ => True

section CallsAtMost

variable {n : Nat} {b : Bus}

theorem Result.CallsAtMost.ite {c : Bool} {x y : State} (hx : Result.CallsAtMost n b (.next x))
    (hy : Result.CallsAtMost n b (.next y)) : Result.CallsAtMost n b (.next (if c then x else y)) := by
  cases c
  · exact hy
  · exact hx

theorem Result.CallsAtMost.addCost {r : Result} (h : Result.CallsAtMost n b r) (t : Nat) :
    Result.CallsAtMost n b (r.addCost t) := by
  cases r <;> exact h

/-- An iteration of a repeating block instruction ends without a call of its own (42_exchange_block.md rule R275). -/
theorem Result.CallsAtMost.repeatIf {s : State} (h : Result.CallsAtMost n b (.next s)) (again : Bool) :
    Result.CallsAtMost n b (.next (s.repeatIf again)) := by
  cases again <;> exact h

end CallsAtMost

/-- The instructions that an index byte before them may leave unchanged make two bus calls at most. -/
theorem execBase_calls (i : Instr) (s : State) : Result.CallsAtMost 2 s.bus (execBase i s) := by
  cases i with
  | nop | ldRR | ldRN | exDeHl | exAfAf | exx | addAR | addAN | adcAR | adcAN | subR | subN | sbcAR | sbcAN | andR |
  andN | xorR | xorN | orR | orN | cpR | cpN | incR | decR | daa | cpl | ccf | scf | di | ei | rlca | rrca | rla |
  rra | jpNn | jrE =>
    exact ⟨0, Nat.zero_le 2, .none⟩
  | ldDdNn p | incSs p | decSs p => cases p <;> exact ⟨0, Nat.zero_le 2, .none⟩
  | jpCcNn cc nn => exact .ite (c := s.cond cc) (x := s.setPc nn) ⟨0, Nat.zero_le 2, .none⟩ ⟨0, Nat.zero_le 2, .none⟩
  | jrCcE | djnzE => exact .ite ⟨0, Nat.zero_le 2, .none⟩ ⟨0, Nat.zero_le 2, .none⟩
  | ldAMemBc | ldAMemDe | ldAMemNn | inAN | outNA => exact ⟨1, Nat.le_succ 1, .called .none⟩
  | ldMemBcA | ldMemDeA | ldMemNnA => exact ⟨1, Nat.le_succ 1, .write .none⟩
  | ret => exact ⟨2, Nat.le_refl 2, .called (.called .none)⟩
  | popQq p => cases p <;> exact ⟨2, Nat.le_refl 2, .called (.called .none)⟩
  | retCc => exact .ite ⟨2, Nat.le_refl 2, .called (.called .none)⟩ ⟨0, Nat.zero_le 2, .none⟩
  | pushQq | callNn | rstP => exact ⟨2, Nat.le_refl 2, .write (.write .none)⟩
  | callCcNn => exact .ite ⟨2, Nat.le_refl 2, .write (.write .none)⟩ ⟨0, Nat.zero_le 2, .none⟩
  | _ => trivial

/-- Only the exchanges with the top of the stack make more than two bus calls: two reads, then two writes
(42_exchange_block.md rules R273, R274). -/
theorem exec_calls (i : Instr) (s : State) : Result.CallsAtMost i.mostCalls s.bus (exec i s) := by
  have hb := execBase_calls i s
  cases i with
  | nop | ldRR | ldRN | ldAMemBc | ldAMemDe | ldAMemNn | exDeHl | addAR | addAN | adcAR | adcAN | subR | subN |
  sbcAR | sbcAN | andR | andN | xorR | xorN | orR | orN | cpR | cpN | incR | decR | daa | cpl | ccf | scf | rlca |
  rrca | rla | rra | jpNn | jrE | ret | inAN | outNA | ldMemBcA | ldMemDeA | ldMemNnA | pushQq | callNn | rstP |
  exAfAf | exx | di | ei | ldDdNn | incSs | decSs | popQq | jpCcNn | jrCcE | djnzE | callCcNn | retCc =>
    exact hb
  | prefixIgnored _ base => exact (execBase_calls base s).addCost 4
  | exSpHl | exSpIdx => exact ⟨4, Nat.le_refl 4, .write (.write (.called (.called .none)))⟩
  | incHalf _ k | decHalf _ k | ldHalfN _ k | ldHalfR _ k => cases k <;> exact ⟨0, Nat.zero_le 2, .none⟩
  | prefixThenIndex | prefixThenEd | haltIgnored | halt | ldIdxNn | incIdx | decIdx | addIdxPp | ldRHalf | addAHalf |
  adcAHalf | subHalf | sbcAHalf | andHalf | xorHalf | orHalf | cpHalf | jpIdx | ldSpIdx | rlcR | rrcR | rlR | rrR |
  slaR | sraR | sllR | srlR | bitR | resR | setR | sbcHlSs | adcHlSs | neg | im0 | im1 | im2 | ldIA | ldRA | ldAI |
  ldAR | nopEd | ldSpHl | addHlSs | jpHl =>
    exact ⟨0, Nat.zero_le 2, .none⟩
  | bitMemIdx | ldRMemIdx | addAMemIdx | adcAMemIdx | subMemIdx | sbcAMemIdx | andMemIdx | xorMemIdx | orMemIdx |
  cpMemIdx | bitMemHl | inFC | inRC | outCZero | outCR | cpi | cpd | ldRMemHl | addAMemHl | adcAMemHl | subMemHl |
  sbcAMemHl | andMemHl | xorMemHl | orMemHl | cpMemHl =>
    exact ⟨1, Nat.le_succ 1, .called .none⟩
  | ldMemIdxN | ldMemIdxR | ldMemHlR | ldMemHlN => exact ⟨1, Nat.le_succ 1, .write .none⟩
  | ldIdxMemNn | popIdx | reti | retn | outi | outd | ldHlMemNn => exact ⟨2, Nat.le_refl 2, .called (.called .none)⟩
  | ldDdMemNn p => cases p <;> exact ⟨2, Nat.le_refl 2, .called (.called .none)⟩
  | ldMemNnIdx | pushIdx | ldMemNnDd | ldMemNnHl => exact ⟨2, Nat.le_refl 2, .write (.write .none)⟩
  | rlcMemIdx | rlcMemIdxCopy | rrcMemIdx | rrcMemIdxCopy | rlMemIdx | rlMemIdxCopy | rrMemIdx | rrMemIdxCopy |
  slaMemIdx | slaMemIdxCopy | sraMemIdx | sraMemIdxCopy | sllMemIdx | sllMemIdxCopy | srlMemIdx | srlMemIdxCopy |
  resMemIdx | resMemIdxCopy | setMemIdx | setMemIdxCopy | incMemIdx | decMemIdx | rlcMemHl | rrcMemHl | rlMemHl |
  rrMemHl | slaMemHl | sraMemHl | sllMemHl | srlMemHl | resMemHl | setMemHl | incMemHl | decMemHl | rrd | rld | ldi |
  ldd | ini | ind =>
    exact ⟨2, Nat.le_refl 2, .write (.called .none)⟩
  | cpir | cpdr => exact .repeatIf ⟨1, Nat.le_succ 1, .called .none⟩ _
  | ldir | lddr | inir | indr => exact .repeatIf ⟨2, Nat.le_refl 2, .write (.called .none)⟩ _
  | otir | otdr => exact .repeatIf ⟨2, Nat.le_refl 2, .called (.called .none)⟩ _

/-! ### The bus calls of a step (60_exceptions.md rule R603) -/

/-- The reads of a decode in progress, and room for the calls of the instruction it comes to. -/
theorem fetchWith_calls : ∀ {d : Dec} {n : Nat} (s : State), d.Fits n →
    ∃ k, s.bus.Calls k (fetchWith d s).2.bus ∧ k + (fetchWith d s).1.mostCalls ≤ n
  | .done _, _, _, h | .unread _, _, _, h => ⟨0, .none, (Nat.zero_add _).trans_le h⟩
  | .more st f, n, s, ⟨hn, h⟩ => by
    obtain ⟨k, hk, hle⟩ := fetchWith_calls { s.afterRead s.pc with decode := st, pc := s.pc + 1 } (h (s.memByte s.pc))
    refine ⟨1 + k, .trans (.called .none) hk, ?_⟩
    rw [fetchWith]
    omega

/-- A fetch reads at least the opcode, and leaves room for the calls of its instruction. -/
theorem begun_calls (s : State) :
    ∃ k, 1 ≤ k ∧ s.bus.Calls k s.begun.bus ∧ k + (fetch s).1.mostCalls ≤ 6 := by
  obtain ⟨-, h⟩ := decStart_fits
  obtain ⟨k, hk, hle⟩ := fetchWith_calls { s.afterRead s.pc with decode := .base, pc := s.pc + 1 } (h (s.memByte s.pc))
  refine ⟨1 + k, Nat.le_add_right 1 k, .trans (.called .none) hk, ?_⟩
  rw [Nat.add_assoc]
  exact Nat.add_le_add_left hle 1

section Step

variable {s t : State}

/-- An acceptance pushes PC, and in mode 2 reads a vector too. -/
theorem acceptInt_calls (h : acceptInt s = .next t) : ∃ k, 1 ≤ k ∧ k ≤ 6 ∧ s.bus.Calls k t.bus := by
  unfold acceptInt at h
  split at h
  · split at h <;> cases h
    exact ⟨2, by decide, by decide, .write (.write .none)⟩
  · cases h
    exact ⟨2, by decide, by decide, .write (.write .none)⟩
  · cases h
    exact ⟨4, by decide, by decide, .called (.called (.write (.write .none)))⟩

/-- Every kind of step makes one to six bus calls. -/
theorem step_calls (h : step s = .next t) : ∃ k, 1 ≤ k ∧ k ≤ 6 ∧ s.bus.Calls k t.bus := by
  unfold step at h
  split at h
  · cases h
    exact ⟨2, by decide, by decide, .write (.write .none)⟩
  split at h
  · exact acceptInt_calls h
  split at h
  · cases h
    exact ⟨1, by decide, by decide, .called .none⟩
  · obtain ⟨k, hpos, hf, hle⟩ := begun_calls s
    have he : Result.CallsAtMost (fetch s).1.mostCalls s.begun.bus (.next t) := h ▸ exec_calls (fetch s).1 s.begun
    obtain ⟨m, hm, hc⟩ := he
    exact ⟨k + m, by omega, by omega, hf.trans hc⟩

end Step

/-- Settles O23: a step is one to six bus calls in a row, and of those only a write changes RAM. -/
theorem memoryChangesOnlyByWriteCalls : Obligations.MemoryChangesOnlyByWriteCalls := by
  intro s t hw h
  obtain ⟨k, hpos, hle, hc⟩ := step_calls h
  obtain ⟨calls, hlog, rfl, hwrites⟩ := hc.log_and_writes hw
  exact ⟨calls, hlog, hpos, hle, hwrites⟩

end Sys2Proof.Machine

/-! Encoding (30_encoding.md): decoding undoes encoding, instruction by instruction; and every sequence of bytes begins
with an instruction, opcode by opcode, of the length and refresh advance its first two bytes give. -/

namespace Sys2Proof

open Sys2Proof.Machine (hi lo w16 w16_hi_lo fieldX fieldY fieldZ op8 baseLength takesDisplacement lengthFrom
  refreshFrom)

/-! ### The fields of an opcode (rules R142, R143) -/

/-- A field of two bits, value by value. -/
theorem quarter_cases {motive : BitVec 2 → Prop} (zero : motive 0) (one : motive 1) (two : motive 2)
    (three : motive 3) (x : BitVec 2) : motive x := by
  have h : ∀ x : BitVec 2, x = 0 ∨ x = 1 ∨ x = 2 ∨ x = 3 := by decide
  obtain rfl | rfl | rfl | rfl := h x
  all_goals assumption

/-- A field of three bits, value by value. -/
theorem octal_cases {motive : BitVec 3 → Prop} (zero : motive 0) (one : motive 1) (two : motive 2)
    (three : motive 3) (four : motive 4) (five : motive 5) (six : motive 6) (seven : motive 7) (y : BitVec 3) :
    motive y := by
  have h : ∀ y : BitVec 3, y = 0 ∨ y = 1 ∨ y = 2 ∨ y = 3 ∨ y = 4 ∨ y = 5 ∨ y = 6 ∨ y = 7 := by decide
  obtain rfl | rfl | rfl | rfl | rfl | rfl | rfl | rfl := h y
  all_goals assumption

@[simp] theorem fieldX_op8 (x : BitVec 2) (y z : BitVec 3) : fieldX (op8 x y z) = x := by
  revert x y z
  decide

@[simp] theorem fieldY_op8 (x : BitVec 2) (y z : BitVec 3) : fieldY (op8 x y z) = y := by
  revert x y z
  decide

@[simp] theorem fieldZ_op8 (x : BitVec 2) (y z : BitVec 3) : fieldZ (op8 x y z) = z := by
  revert x y z
  decide

theorem op8_fields : ∀ op : Byte, op8 (fieldX op) (fieldY op) (fieldZ op) = op := by decide

theorem exists_op8 (op : Byte) : ∃ x y z, op = op8 x y z := ⟨_, _, _, (op8_fields op).symm⟩

@[simp] theorem Reg8.ofCode_code (r : Reg8) : Reg8.ofCode r.code = some r := by cases r <;> rfl

@[simp] theorem Reg8.ofCode_six : Reg8.ofCode 6#3 = none := rfl

/-! ### Decoding an encoded instruction -/

theorem decode_cb (op : Byte) (rest : List Byte) : decode (0xCB :: op :: rest) = .ok (decCb op, rest) := rfl

theorem decode_idxCb (x : Idx) (d op : Byte) (rest : List Byte) :
    decode (x.prefixByte :: 0xCB :: d :: op :: rest) = .ok (decIdxCb x d op, rest) := by
  cases x <;> rfl

/-- Where an index byte is ignored the opcode map is the one of rule R152 (rule R159). -/
theorem decode_prefixIgnored {base : Instr} (h : base.ignoresPrefix = true) (x : Idx) (rest : List Byte) :
    decode (encode (.prefixIgnored x base) ++ rest) = .ok (.prefixIgnored x base, rest) := by
  cases base with
  | nop | ldAMemBc | ldAMemDe | ldMemBcA | ldMemDeA | exDeHl | exAfAf | exx | daa | cpl | ccf | scf | di | ei | rlca
  | rrca | rla | rra | ret | addAN | adcAN | subN | sbcAN | andN | xorN | orN | cpN | jrE | djnzE | inAN | outNA =>
    cases x <;> rfl
  | ldAMemNn nn | ldMemNnA nn | jpNn nn | callNn nn =>
    conv_rhs => rw [← w16_hi_lo nn]
    cases x <;> rfl
  | jpCcNn cc nn | callCcNn cc nn =>
    conv_rhs => rw [← w16_hi_lo nn]
    cases cc <;> cases x <;> rfl
  | ldDdNn p nn =>
    conv_rhs => rw [← w16_hi_lo nn]
    cases p <;> cases h <;> cases x <;> rfl
  | ldRR r r' => cases r <;> cases r' <;> cases h <;> cases x <;> rfl
  | ldRN r | incR r | decR r | addAR r | adcAR r | subR r | sbcAR r | andR r | xorR r | orR r | cpR r =>
    cases r <;> cases h <;> cases x <;> rfl
  | incSs r | decSs r | pushQq r | popQq r => cases r <;> cases h <;> cases x <;> rfl
  | jrCcE cc | retCc cc => cases cc <;> cases x <;> rfl
  | rstP p => cases p using octal_cases <;> cases x <;> rfl
  | _ => exact absurd h Bool.false_ne_true

/-- The no-operations of rule R386 among the opcodes after ED with x = 1. -/
theorem edUndefined_op8_one : ∀ y z : BitVec 3, edUndefined (op8 1 y z) = true → (y = 6 ∨ y = 7) ∧ z = 7 := by
  decide

/-- The no-operations of rule R386 are no block instructions. -/
theorem edUndefined_op8_two :
    ∀ y z : BitVec 3, edUndefined (op8 2 y z) = true → ¬(4 ≤ y.toNat ∧ z.toNat ≤ 3) := by
  decide

theorem decEd_of_edUndefined {op : Byte} (h : edUndefined op = true) : decEd op = .done (.nopEd op) := by
  obtain ⟨x, y, z, rfl⟩ := exists_op8 op
  cases x using quarter_cases with
  | zero | three => simp [decEd]
  | one =>
    obtain ⟨rfl | rfl, rfl⟩ := edUndefined_op8_one y z h
    all_goals rfl
  | two => simp [decEd, edUndefined_op8_two y z h]

theorem followedBy_prefixThenIndex {x : Idx} {rest : List Byte} (h : followedBy (.prefixThenIndex x) rest = true) :
    ∃ b bs, rest = b :: bs ∧ (b = 0xDD ∨ b = 0xFD) := by
  cases rest with
  | nil => cases h
  | cons b bs => exact ⟨b, bs, rfl, by simpa [followedBy] using h⟩

theorem followedBy_prefixThenEd {x : Idx} {rest : List Byte} (h : followedBy (.prefixThenEd x) rest = true) :
    ∃ bs, rest = 0xED :: bs := by
  cases rest with
  | nil => cases h
  | cons b bs => exact ⟨bs, by simpa [followedBy] using h⟩

/-- Decoding undoes encoding, for every row of the opcode table (rules R152 to R159). -/
theorem decode_encode {i : Instr} {rest : List Byte} (hw : i.wf = true) (hf : followedBy i rest = true) :
    decode (encode i ++ rest) = .ok (i, rest) := by
  cases i with
  | prefixThenIndex x =>
    obtain ⟨b, bs, rfl, rfl | rfl⟩ := followedBy_prefixThenIndex hf
    all_goals cases x <;> rfl
  | prefixThenEd x =>
    obtain ⟨bs, rfl⟩ := followedBy_prefixThenEd hf
    cases x <;> rfl
  | prefixIgnored x base => exact decode_prefixIgnored hw x rest
  | nopEd op => exact congrArg (Dec.onList · _ rest) (decEd_of_edUndefined hw)
  | rlcMemHl | rrcMemHl | rlMemHl | rrMemHl | slaMemHl | sraMemHl | sllMemHl | srlMemHl | inFC | outCZero | reti | ldIA
  | ldRA | ldAI | ldAR | rrd | rld | ldi | ldir | ldd | lddr | cpi | cpir | cpd | cpdr | ini | inir | ind | indr | outi
  | otir | outd | otdr | nop | halt | ldMemHlN | ldAMemBc | ldAMemDe | ldMemBcA | ldMemDeA | ldSpHl | exDeHl | exAfAf
  | exx | exSpHl | addAMemHl | addAN | adcAMemHl | adcAN | subMemHl | subN | sbcAMemHl | sbcAN | andMemHl | andN
  | xorMemHl | xorN | orMemHl | orN | cpMemHl | cpN | incMemHl | decMemHl | daa | cpl | ccf | scf | di | ei | rlca | rrca
  | rla | rra | jrE | djnzE | jpHl | ret | inAN | outNA =>
    rfl
  | incIdx x | decIdx x | incMemIdx x | decMemIdx x | ldMemIdxN x | haltIgnored x | addAMemIdx x | adcAMemIdx x
  | subMemIdx x | sbcAMemIdx x | andMemIdx x | xorMemIdx x | orMemIdx x | cpMemIdx x | pushIdx x | popIdx x | exSpIdx x
  | jpIdx x | ldSpIdx x | rlcMemIdx x | rrcMemIdx x | rlMemIdx x | rrMemIdx x | slaMemIdx x | sraMemIdx x | sllMemIdx x
  | srlMemIdx x =>
    cases x <;> rfl
  | ldIdxNn x nn | ldMemNnIdx x nn | ldIdxMemNn x nn =>
    conv_rhs => rw [← w16_hi_lo nn]
    cases x <;> rfl
  | addIdxPp x r | incHalf x r | decHalf x r | ldHalfN x r | ldRMemIdx x r | ldMemIdxR x _ r | addAHalf x r
  | adcAHalf x r | subHalf x r | sbcAHalf x r | andHalf x r | xorHalf x r | orHalf x r | cpHalf x r | rlcMemIdxCopy x _ r
  | rrcMemIdxCopy x _ r | rlMemIdxCopy x _ r | rrMemIdxCopy x _ r | slaMemIdxCopy x _ r | sraMemIdxCopy x _ r
  | sllMemIdxCopy x _ r | srlMemIdxCopy x _ r =>
    cases x <;> cases r <;> rfl
  | ldHalfR x k r => cases x <;> cases k <;> cases r <;> rfl
  | ldRHalf x r k => cases r <;> cases hw <;> cases x <;> cases k <;> rfl
  | bitMemIdx x d b z | resMemIdx x d b | setMemIdx x d b | resMemIdxCopy x d b r | setMemIdxCopy x d b r =>
    exact (decode_idxCb x d _ rest).trans (by simp [decIdxCb])
  | bitMemHl b | bitR b r | resMemHl b | resR b r | setMemHl b | setR b r =>
    exact (decode_cb _ rest).trans (by simp [decCb])
  | rlcR r | rrcR r | rlR r | rrR r | slaR r | sraR r | sllR r | srlR r | inRC r | outCR r | sbcHlSs r | adcHlSs r
  | ldRMemHl r | ldMemHlR r | ldRN r | pushQq r | popQq r | addAR r | adcAR r | subR r | sbcAR r | andR r | xorR r | orR r
  | cpR r | incR r | decR r | addHlSs r | incSs r | decSs r | jrCcE r | retCc r =>
    cases r <;> rfl
  | ldMemNnDd q nn | ldDdMemNn q nn | ldDdNn q nn | jpCcNn q nn | callCcNn q nn =>
    conv_rhs => rw [← w16_hi_lo nn]
    cases q <;> rfl
  | ldAMemNn nn | ldMemNnA nn | ldHlMemNn nn | ldMemNnHl nn | jpNn nn | callNn nn =>
    conv_rhs => rw [← w16_hi_lo nn]
    rfl
  | neg y | rstP y => cases y using octal_cases <;> rfl
  | retn y | im0 y => cases y using octal_cases <;> cases hw <;> rfl
  | im1 y | im2 y =>
    have h : ∀ y : BitVec 1, y = 0 ∨ y = 1 := by decide
    obtain rfl | rfl := h y
    all_goals rfl
  | ldRR r r' => cases r <;> cases r' <;> rfl

/-- Settles O2: `decode_encode` reads back every constructor's encoding. -/
theorem decodeOfEncode : Obligations.DecodeOfEncode := fun _ _ => decode_encode

/-! ### What a decode comes to stands for the bytes it read -/

/-- The index bytes that are instructions of their own (rule R158). -/
def Instr.isStandalone : Instr → Bool
  | .prefixThenIndex _ | .prefixThenEd _ => true
  | _ => false

/-- The bytes are the encoding of the instruction, which is well formed and more than an index byte alone. Of an
instruction of the tables all three hold by evaluation. -/
structure Instr.SpelledBy (bytes : List Byte) (i : Instr) : Prop where
  wf : i.wf = true := by rfl
  encode_eq : encode i = bytes := by rfl
  notStandalone : i.isStandalone = false := by rfl

theorem Instr.SpelledBy.followedBy {bytes : List Byte} {i : Instr} (h : i.SpelledBy bytes) (rest : List Byte) :
    followedBy i rest = true := by
  cases i with
  | prefixThenIndex | prefixThenEd => exact nomatch h.notStandalone
  | _ => rfl

theorem Instr.SpelledBy.m1Cycles_eq {b : Byte} {bytes : List Byte} {i : Instr} (h : i.SpelledBy (b :: bytes)) :
    i.m1Cycles = if isPrefixByte b then 2 else 1 := by
  have he := h.encode_eq
  unfold Instr.m1Cycles
  split
  · exact nomatch h.notStandalone
  · exact nomatch h.notStandalone
  · rw [he]

/-- A decode that has read `pre` reads n bytes more, and comes to the instruction they all spell. -/
def Dec.Spells : Nat → List Byte → Dec → Prop
  | 0, pre, .done i => i.SpelledBy pre
  | n + 1, pre, .more _ k => ∀ b, (k b).Spells n (pre ++ [b])
  | _, _, _ => False

theorem Dec.spells_done {pre : List Byte} {i : Instr} : (Dec.done i).Spells 0 pre ↔ i.SpelledBy pre := .rfl

/-- It is enough to check a word operand by its two halves; `wrap` marks an ignored index byte, or is the identity. -/
theorem Dec.spells_imm16 {pre : List Byte} {st : DecodeState} {wrap : Instr → Instr} {f : Word → Instr}
    (h : ∀ nn, (wrap (f nn)).SpelledBy (pre ++ [lo nn, hi nn])) :
    (Dec.imm16 st fun nn => wrap (f nn)).Spells 2 pre := by
  intro l u
  simpa [Dec.spells_done] using h (w16 u l)

/-- Fed with enough bytes such a decode takes n of them, and leaves the rest. -/
theorem Dec.Spells.onList : ∀ {n : Nat} {pre : List Byte} {d : Dec}, d.Spells n pre → ∀ (before : List Byte)
    {bs : List Byte}, n ≤ bs.length →
      ∃ i, d.onList before bs = .ok (i, bs.drop n) ∧ i.SpelledBy (pre ++ bs.take n)
  | 0, pre, .done i, h, _, bs, _ => ⟨i, rfl, by simpa using Dec.spells_done.1 h⟩
  | n + 1, pre, .more _ k, h, _, b :: bs, hn => by
    obtain ⟨i, hi, hs⟩ := (h b).onList (b :: bs) (Nat.le_of_succ_le_succ hn)
    exact ⟨i, hi, by simpa using hs⟩

/-! ### The opcode tables (rules R152 to R156)

Column by column (z), then row by row (y): an opcode without operand is closed by `.mk`, one with a byte after it by
`fun _ => .mk`, one with a word by `Dec.spells_imm16`. -/

/-- A decode after one more byte, if it needs one. -/
def Dec.next : Dec → Byte → Dec
  | .more _ k, b => k b
  | d, _ => d

/-- The map of the opcodes, alone (rule R152) or after an index byte DD or FD (rules R155, R159). -/
def decOpcode : Option Idx → Byte → Dec
  | none => decStart.next
  | some x => decIdx x

/-- How many bytes follow an opcode, alone or after an index byte (rule R160). -/
def opcodeOperands : Option Idx → Byte → Nat
  | none, op => baseLength op - 1
  | some _, op => if takesDisplacement op then baseLength op else baseLength op - 1

/-- The index byte before an opcode, or none. -/
def prefixBytes : Option Idx → List Byte
  | none => []
  | some x => [x.prefixByte]

section OpcodeMap

variable (p : Option Idx)

theorem decOpcode_op8_zero_spells (y z : BitVec 3) : (decOpcode p (op8 0 y z)).Spells
    (opcodeOperands p (op8 0 y z)) (prefixBytes p ++ [op8 0 y z]) := by
  cases z using octal_cases with
  | zero =>
    cases y using octal_cases with
    | zero | one => cases p <;> exact .mk
    | _ => cases p <;> exact fun _ => .mk
  | one =>
    cases y using octal_cases with
    | zero | two | six => cases p <;> exact Dec.spells_imm16 fun _ => .mk
    | four =>
      cases p with
      | none => exact Dec.spells_imm16 fun _ => .mk
      | some x => exact Dec.spells_imm16 (wrap := id) fun _ => .mk
    | _ => cases p <;> exact .mk
  | two =>
    cases y using octal_cases with
    | zero | one | two | three => cases p <;> exact .mk
    | four | five =>
      cases p with
      | none => exact Dec.spells_imm16 fun _ => .mk
      | some x => exact Dec.spells_imm16 (wrap := id) fun _ => .mk
    | _ => cases p <;> exact Dec.spells_imm16 fun _ => .mk
  | four | five =>
    cases y using octal_cases with
    | six =>
      cases p with
      | none => exact .mk
      | some x => exact fun _ => .mk
    | _ => cases p <;> exact .mk
  | six =>
    cases y using octal_cases with
    | six =>
      cases p with
      | none => exact fun _ => .mk
      | some x => exact fun _ _ => .mk
    | _ => cases p <;> exact fun _ => .mk
  | _ => cases y using octal_cases <;> cases p <;> exact .mk

theorem decOpcode_op8_one_spells (y z : BitVec 3) : (decOpcode p (op8 1 y z)).Spells
    (opcodeOperands p (op8 1 y z)) (prefixBytes p ++ [op8 1 y z]) := by
  cases p with
  | none =>
    cases z using octal_cases
    all_goals cases y using octal_cases <;> exact .mk
  | some x =>
    cases z using octal_cases with
    | six =>
      cases y using octal_cases with
      | six => exact .mk
      | _ => exact fun _ => .mk
    | _ =>
      cases y using octal_cases with
      | six => exact fun _ => .mk
      | _ => exact .mk

theorem decOpcode_op8_two_spells (y z : BitVec 3) : (decOpcode p (op8 2 y z)).Spells
    (opcodeOperands p (op8 2 y z)) (prefixBytes p ++ [op8 2 y z]) := by
  cases z using octal_cases with
  | six =>
    cases p with
    | none => cases y using octal_cases <;> exact .mk
    | some x => cases y using octal_cases <;> exact fun _ => .mk
  | _ => cases y using octal_cases <;> cases p <;> exact .mk

theorem decOpcode_op8_three_spells (y z : BitVec 3) (h : isPrefixByte (op8 3 y z) = false) :
    (decOpcode p (op8 3 y z)).Spells
      (opcodeOperands p (op8 3 y z)) (prefixBytes p ++ [op8 3 y z]) := by
  cases z using octal_cases with
  | two | four => cases y using octal_cases <;> cases p <;> exact Dec.spells_imm16 fun _ => .mk
  | three =>
    cases y using octal_cases with
    | zero => cases p <;> exact Dec.spells_imm16 fun _ => .mk
    | one => exact nomatch h
    | two | three => cases p <;> exact fun _ => .mk
    | _ => cases p <;> exact .mk
  | five =>
    cases y using octal_cases with
    | one => cases p <;> exact Dec.spells_imm16 fun _ => .mk
    | three | five | seven => exact nomatch h
    | _ => cases p <;> exact .mk
  | six => cases y using octal_cases <;> cases p <;> exact fun _ => .mk
  | _ => cases y using octal_cases <;> cases p <;> exact .mk

/-- An opcode spells its instruction with the operands after it. -/
theorem decOpcode_spells {op : Byte} (h : isPrefixByte op = false) :
    (decOpcode p op).Spells (opcodeOperands p op) (prefixBytes p ++ [op]) := by
  obtain ⟨x, y, z, rfl⟩ := exists_op8 op
  cases x using quarter_cases with
  | zero => exact decOpcode_op8_zero_spells p y z
  | one => exact decOpcode_op8_one_spells p y z
  | two => exact decOpcode_op8_two_spells p y z
  | three => exact decOpcode_op8_three_spells p y z h

end OpcodeMap

theorem decCb_spelledBy (op : Byte) : (decCb op).SpelledBy [0xCB, op] := by
  obtain ⟨x, y, z, rfl⟩ := exists_op8 op
  cases x using quarter_cases
  all_goals cases z using octal_cases <;> cases y using octal_cases <;> exact .mk

theorem decIdxCb_spelledBy (x : Idx) (d op : Byte) : (decIdxCb x d op).SpelledBy [x.prefixByte, 0xCB, d, op] := by
  obtain ⟨k, y, z, rfl⟩ := exists_op8 op
  cases k using quarter_cases
  all_goals cases z using octal_cases <;> cases y using octal_cases <;> exact .mk

theorem decEd_spells (op : Byte) : (decEd op).Spells (if op &&& 0xC7 = 0x43 then 2 else 0) [0xED, op] := by
  obtain ⟨x, y, z, rfl⟩ := exists_op8 op
  cases x using quarter_cases with
  | one =>
    cases z using octal_cases with
    | three => cases y using octal_cases <;> exact Dec.spells_imm16 (wrap := id) fun _ => .mk
    | _ => cases y using octal_cases <;> exact .mk
  | _ => cases z using octal_cases <;> cases y using octal_cases <;> exact .mk

/-! ### The first instruction of a sequence of bytes (rules R157, R160, R162) -/

/-- The bytes begin with an instruction of n bytes and a refresh advance of m. -/
def BeginsWith (bytes : List Byte) (n m : Nat) : Prop :=
  ∃ i rest, decode bytes = .ok (i, rest) ∧ i.wf = true ∧ followedBy i rest = true ∧ encode i ++ rest = bytes ∧
    i.length = n ∧ i.m1Cycles = m

theorem Dec.Spells.beginsWith {d : Dec} {n : Nat} {b : Byte} {pre before bs : List Byte} (h : d.Spells n (b :: pre))
    (hd : decode (b :: pre ++ bs) = d.onList before bs) (hn : n ≤ bs.length) :
    BeginsWith (b :: pre ++ bs) (pre.length + 1 + n) (if isPrefixByte b then 2 else 1) := by
  obtain ⟨i, hi, hs⟩ := h.onList before hn
  refine ⟨i, bs.drop n, hd.trans hi, hs.wf, hs.followedBy _, ?_, ?_, hs.m1Cycles_eq⟩
  · rw [hs.encode_eq, List.append_assoc, List.take_append_drop]
  · rw [Instr.length, hs.encode_eq, List.length_append, List.length_take_of_le hn, List.length_cons]

theorem isPrefixByte_eq_false {b : Byte} :
    isPrefixByte b = false ↔ b ≠ 0xCB ∧ b ≠ 0xED ∧ b ≠ 0xDD ∧ b ≠ 0xFD := by
  simp [isPrefixByte, and_assoc]

/-- The four bytes that may come before an opcode (rule R140). -/
theorem isPrefixByte_cases {b : Byte} (h : isPrefixByte b = true) :
    b = 0xCB ∨ b = 0xED ∨ ∃ x : Idx, b = x.prefixByte := by
  have hb : b = 0xCB ∨ b = 0xED ∨ b = 0xDD ∨ b = 0xFD := by simpa [isPrefixByte, or_assoc] using h
  obtain rfl | rfl | rfl | rfl := hb
  · exact .inl rfl
  · exact .inr (.inl rfl)
  · exact .inr (.inr ⟨.ix, rfl⟩)
  · exact .inr (.inr ⟨.iy, rfl⟩)

theorem one_le_baseLength (b : Byte) : 1 ≤ baseLength b := by
  unfold baseLength
  split_ifs <;> decide

theorem baseLength_le_three (b : Byte) : baseLength b ≤ 3 := by
  unfold baseLength
  split_ifs <;> decide

/-- No displacement stands before a word. -/
theorem baseLength_le_two_of_takesDisplacement : ∀ {b : Byte}, takesDisplacement b = true → baseLength b ≤ 2 := by
  decide

theorem opcodeOperands_le_two (p : Option Idx) (op : Byte) : opcodeOperands p op ≤ 2 := by
  have h := baseLength_le_three op
  unfold opcodeOperands
  split
  · omega
  · split_ifs with ht
    · exact baseLength_le_two_of_takesDisplacement ht
    · omega

/-- The first bytes of an unprefixed opcode (rules R160, R162). -/
theorem firstBytes_unprefixed {b0 : Byte} (b1 : Byte) (h : isPrefixByte b0 = false) :
    lengthFrom b0 b1 = 1 + opcodeOperands none b0 ∧ refreshFrom b0 b1 = 1 := by
  obtain ⟨hcb, hed, hdd, hfd⟩ := isPrefixByte_eq_false.1 h
  rw [lengthFrom, if_neg hcb, if_neg hed, if_neg (not_or.2 ⟨hdd, hfd⟩), refreshFrom, if_neg (not_or.2 ⟨hcb, hed⟩),
    if_neg (not_or.2 ⟨hdd, hfd⟩)]
  exact ⟨(Nat.add_sub_cancel' (one_le_baseLength b0)).symm, rfl⟩

/-- The first bytes of an opcode after an index byte (rules R160, R162). -/
theorem firstBytes_index (x : Idx) {b1 : Byte} (h : isPrefixByte b1 = false) :
    lengthFrom x.prefixByte b1 = 2 + opcodeOperands (some x) b1 ∧ refreshFrom x.prefixByte b1 = 2 := by
  obtain ⟨hcb, hed, hdd, hfd⟩ := isPrefixByte_eq_false.1 h
  have hn : ¬(b1 = 0xDD ∨ b1 = 0xFD ∨ b1 = 0xED) := not_or.2 ⟨hdd, not_or.2 ⟨hfd, hed⟩⟩
  have hl : lengthFrom x.prefixByte b1 = 1 + baseLength b1 + if takesDisplacement b1 then 1 else 0 := by
    cases x <;> exact (if_neg hn).trans (if_neg hcb)
  constructor
  · have h1 := one_le_baseLength b1
    rw [hl, opcodeOperands]
    split_ifs <;> omega
  · cases x <;> exact if_neg hn

theorem beginsWith_unprefixed {b0 : Byte} (h : isPrefixByte b0 = false) (b1 b2 b3 : Byte) (more : List Byte) :
    BeginsWith (b0 :: b1 :: b2 :: b3 :: more) (lengthFrom b0 b1) (refreshFrom b0 b1) := by
  obtain ⟨hl, hr⟩ := firstBytes_unprefixed b1 h
  have hn : opcodeOperands none b0 ≤ (b1 :: b2 :: b3 :: more).length :=
    (opcodeOperands_le_two none b0).trans (Nat.le_add_left 2 (more.length + 1))
  have hb := (decOpcode_spells none h).beginsWith (bs := b1 :: b2 :: b3 :: more) rfl hn
  rw [hl, hr]
  rwa [h] at hb

theorem beginsWith_cb (b1 b2 b3 : Byte) (more : List Byte) :
    BeginsWith (0xCB :: b1 :: b2 :: b3 :: more) (lengthFrom 0xCB b1) (refreshFrom 0xCB b1) :=
  (Dec.spells_done.2 (decCb_spelledBy b1)).beginsWith (before := []) rfl (Nat.zero_le _)

theorem beginsWith_ed (b1 b2 b3 : Byte) (more : List Byte) :
    BeginsWith (0xED :: b1 :: b2 :: b3 :: more) (lengthFrom 0xED b1) (refreshFrom 0xED b1) := by
  have hs := decEd_spells b1
  rw [show lengthFrom 0xED b1 = if b1 &&& 0xC7 = 0x43 then 4 else 2 from rfl]
  split_ifs at hs ⊢
  · exact hs.beginsWith rfl (Nat.le_add_left 2 more.length)
  · exact hs.beginsWith rfl (Nat.zero_le _)

theorem beginsWith_index (x : Idx) (b1 b2 b3 : Byte) (more : List Byte) :
    BeginsWith (x.prefixByte :: b1 :: b2 :: b3 :: more) (lengthFrom x.prefixByte b1) (refreshFrom x.prefixByte b1) := by
  cases h : isPrefixByte b1 with
  | false =>
    obtain ⟨hl, hr⟩ := firstBytes_index x h
    have hn : opcodeOperands (some x) b1 ≤ (b2 :: b3 :: more).length :=
      (opcodeOperands_le_two (some x) b1).trans (Nat.le_add_left 2 more.length)
    have hs := decOpcode_spells (some x) h
    rw [hl, hr]
    cases x <;> exact hs.beginsWith rfl hn
  | true =>
    obtain rfl | rfl | ⟨x', rfl⟩ := isPrefixByte_cases h
    · have hs := Dec.spells_done.2 (decIdxCb_spelledBy x b2 b3)
      cases x <;> exact hs.beginsWith (before := []) rfl (Nat.zero_le _)
    · cases x <;> exact ⟨_, _, rfl, rfl, rfl, rfl, rfl, rfl⟩
    · cases x <;> cases x' <;> exact ⟨_, _, rfl, rfl, rfl, rfl, rfl, rfl⟩

/-- Every four bytes begin with an instruction, of the length and refresh advance their first two give. -/
theorem beginsWith_firstBytes (b0 b1 b2 b3 : Byte) (more : List Byte) :
    BeginsWith (b0 :: b1 :: b2 :: b3 :: more) (lengthFrom b0 b1) (refreshFrom b0 b1) := by
  cases h : isPrefixByte b0 with
  | false => exact beginsWith_unprefixed h b1 b2 b3 more
  | true =>
    obtain rfl | rfl | ⟨x, rfl⟩ := isPrefixByte_cases h
    · exact beginsWith_cb b1 b2 b3 more
    · exact beginsWith_ed b1 b2 b3 more
    · exact beginsWith_index x b1 b2 b3 more

/-- Settles O3: the bytes begin with an instruction, whose encoding they are. -/
theorem everyByteSequenceDecodes : Obligations.EveryByteSequenceDecodes := by
  intro b0 b1 b2 b3 more
  obtain ⟨i, rest, hd, hw, hf, he, -, -⟩ := beginsWith_firstBytes b0 b1 b2 b3 more
  exact ⟨i, rest, hd, hw, hf, he⟩

/-- Settles O4: a list of bytes has one first instruction, and `beginsWith_firstBytes` gives its length and refresh
advance. -/
theorem lengthAndRefreshFromFirstBytes : Obligations.LengthAndRefreshFromFirstBytes := by
  intro b0 b1 b2 b3 more rest i h
  obtain ⟨i', rest', hd, -, -, -, hl, hm⟩ := beginsWith_firstBytes b0 b1 b2 b3 more
  obtain ⟨rfl, -⟩ := Prod.mk.inj (Except.ok.inj (h.symm.trans hd))
  exact ⟨hl, hm⟩

/-- Settles O1: the eighteen words are closed terms, and the decoder is run on each. -/
theorem encodingWordsDecode : Obligations.EncodingWordsDecode := by
  unfold Obligations.EncodingWordsDecode
  decide

end Sys2Proof

/-! The 8-bit loads (40_load8.md): what a load to a register or to half of an index register, a load from memory and a
store change, cost and call, said once of each kind, and the instructions as cases of these. -/

namespace Sys2Proof.Machine

/-! ### An instruction is an operation and a cost -/

/-- An operation that costs nothing yet, once the cost is charged. -/
theorem Within.charge {k : Footprint} {s u : State} (h : Within { k with cost := 0 } s u) :
    Within k s (u.cost k.cost) := by
  simpa using h.comp (u.cost_within k.cost)

/-- An instruction that does an operation within a footprint and charges its cost. -/
theorem Runs.charge {i : Instr} {s u : State} {k : Footprint} {post : State → Prop}
    (he : exec i s = .next (u.cost k.cost)) (hk : Within { k with cost := 0 } s u) (hp : post (u.cost k.cost)) :
    Runs i s k post := .intro _ he hk.charge hp

/-! ### What the destinations take -/

@[simp] theorem State.reg_setReg_same (s : State) (r : Reg8) (v : Byte) : (s.setReg r v).reg r = v := by
  simp [State.reg]

/-- One half of an index register takes the byte, and the other is kept (10_state.md rule R43). -/
theorem State.setHalf_holds (s : State) (x : Idx) (k : Half) (v : Byte) :
    (Target.half x k).holds s (s.setHalf x k v) v := by
  cases k with
  | high => simp [Target.holds, State.half, State.setHalf]
  | low => simp [Target.holds, State.half, State.setHalf]

theorem State.setHalf_within (s : State) (x : Idx) (k : Half) (v : Byte) :
    Within { cost := 0, places := [Idx.place x] } s (s.setHalf x k v) :=
  s.setHalf_eq x k v ▸ s.setIdx_within x _

theorem State.setI_within (s : State) (v : Byte) : Within { cost := 0, places := [.i] } s { s with i := v } := by
  refine ⟨rfl, fun p hp => ?_, .of_eq rfl _, ⟨rfl, rfl⟩, rfl⟩
  cases p with
  | i => exact absurd (by decide) hp
  | _ => rfl

theorem State.setR_within (s : State) (v : Byte) : Within { cost := 0, places := [.r] } s { s with r := v } := by
  refine ⟨rfl, fun p hp => ?_, .of_eq rfl _, ⟨rfl, rfl⟩, rfl⟩
  cases p with
  | r => exact absurd (by decide) hp
  | _ => rfl

theorem State.loadAIr_within (s : State) (v : Byte) :
    Within { cost := 0, places := [.a, .f] } s (s.loadAIr v) :=
  (s.setA_within v).comp (State.setF_within _ _)

/-! ### The kinds of load: of an instruction's meaning these ask only that it is that operation and a cost -/

section Kinds

variable {i : Instr} {s : State} {n : Nat} {v : Byte}

/-- A load of a register from no memory. -/
theorem runs_of_setReg {r : Reg8} (he : exec i s = .next ((s.setReg r v).cost n)) :
    Runs i s { cost := n, places := [Reg8.place r] } fun t => t.reg r = v :=
  .charge he (s.setReg_within r v) (s.reg_setReg_same r v)

/-- A load of a half of an index register. -/
theorem runs_of_setHalf {x : Idx} {k : Half} (he : exec i s = .next ((s.setHalf x k v).cost n)) :
    Runs i s { cost := n, places := [Idx.place x] } fun t => (Target.half x k).holds s t v :=
  .charge he (s.setHalf_within x k v) (s.setHalf_holds x k v)

/-- A load of a register from memory: the read, at an address of the old state, comes first. -/
theorem runs_of_load {r : Reg8} {a : Word}
    (he : exec i s = .next (((s.afterRead a).setReg r (s.memByte a)).cost n)) :
    Runs i s { cost := n, places := [Reg8.place r], calls := [s.readCall a] } fun t => t.reg r = s.memByte a :=
  .charge he ((s.afterRead_within a).comp (State.setReg_within _ r _)) (State.reg_setReg_same _ r _)

/-- A store: on RAM of the canonical form the write is seen at its address only. -/
theorem runs_of_store {a : Word} (hw : Memory.wf s.bus.ram = true)
    (he : exec i s = .next ((s.memWrite a v).cost n)) :
    Runs i s { cost := n, stores := [a], calls := [.writeByte a v] } fun t => Holds s t a v :=
  have ⟨hk, hv⟩ := State.memWrite_within hw a v
  .charge he hk hv

/-- A load of A from I or R, with the flags of the byte and IFF2 in PV. -/
theorem runs_of_loadAIr (he : exec i s = .next ((s.loadAIr v).cost n)) :
    Runs i s { cost := n, places := [.a, .f] } fun t =>
      t.main.a = v ∧ t.flags = .result v false s.iff2 false s.flags.c :=
  .charge he (s.loadAIr_within v) ⟨rfl, ldAIrFlags_flags s.main.f v s.iff2⟩

end Kinds

/-! ### The obligations -/

/-- Settles O27: each form is a load of a register or of half of an index register. -/
theorem loadRegisterForms : Obligations.LoadRegisterForms := fun _ =>
  ⟨fun _ _ => runs_of_setReg rfl,
   fun _ _ => runs_of_setReg rfl,
   fun _ _ _ => runs_of_setHalf rfl,
   fun _ _ _ => runs_of_setReg rfl,
   fun _ _ _ => runs_of_setHalf rfl⟩

/-- Settles O28: each form is a load of a register from memory, A among them. -/
theorem loadFromMemoryForms : Obligations.LoadFromMemoryForms := fun _ =>
  ⟨fun _ => runs_of_load rfl,
   fun _ _ _ => runs_of_load rfl,
   runs_of_load (r := .a) rfl,
   runs_of_load (r := .a) rfl,
   fun _ => runs_of_load (r := .a) rfl⟩

/-- Settles O29: each form is a store. -/
theorem storeForms : Obligations.StoreForms := fun _ hw =>
  ⟨fun _ => runs_of_store hw rfl,
   fun _ => runs_of_store hw rfl,
   fun _ _ _ => runs_of_store hw rfl,
   fun _ _ _ => runs_of_store hw rfl,
   runs_of_store hw rfl,
   runs_of_store hw rfl,
   fun _ => runs_of_store hw rfl⟩

/-- Settles O30: two loads of A with flags, and two of I and R from A. -/
theorem interruptAndRefreshLoads : Obligations.InterruptAndRefreshLoads := fun s =>
  ⟨runs_of_loadAIr rfl,
   runs_of_loadAIr rfl,
   .charge rfl (s.setI_within s.main.a) rfl,
   .charge rfl (s.setR_within s.main.a) rfl⟩

end Sys2Proof.Machine

/-! The 16-bit loads (41_load16.md), and INC and DEC of a word (45_alu16.md rules R404 to R407): what a load of a pair or
of an index register, a store of a word and a push change, cost and call, said once of each kind. -/

namespace Sys2Proof.Machine

/-! ### Words -/

@[simp] theorem State.hi_hl (s : State) : hi s.hl = s.main.h := hi_w16 s.main.h s.main.l
@[simp] theorem State.lo_hl (s : State) : lo s.hl = s.main.l := lo_w16 s.main.h s.main.l

/-- One up, modulo 65536. -/
theorem word_succ_toNat (w : Word) : (w + 1).toNat = (w.toNat + 1) % 65536 := BitVec.toNat_add w 1

/-- One down, modulo 65536. -/
theorem word_pred_toNat (w : Word) : (w - 1).toNat = (w.toNat + 65535) % 65536 := BitVec.toNat_sub' w 1

theorem State.idx_setIdx_same (s : State) (x : Idx) (v : Word) : (s.setIdx x v).idx x = v := by
  simp

/-- The claim about the next state may be weakened. -/
theorem Runs.imp {i : Instr} {s : State} {k : Footprint} {post post' : State → Prop} (h : Runs i s k post)
    (hp : ∀ t, post t → post' t) : Runs i s k post' :=
  have ⟨t, he, hk, h⟩ := h
  .intro t he hk (hp t h)

/-! ### The kinds of word operation -/

section WordKinds

variable {i : Instr} {s : State} {n : Nat} {v a : Word}

/-- A pair takes a word from no memory. -/
theorem runs_of_setPair {p : Pair} (he : exec i s = .next ((s.setPair p v).cost n)) :
    Runs i s { cost := n, places := Pair.places p } fun t => t.pair p = v :=
  .charge he (s.setPair_within p v) (s.pair_setPair p v)

/-- An index register takes a word from no memory. -/
theorem runs_of_setIdx {x : Idx} (he : exec i s = .next ((s.setIdx x v).cost n)) :
    Runs i s { cost := n, places := [Idx.place x] } fun t => t.idx x = v :=
  .charge he (s.setIdx_within x v) (s.idx_setIdx_same x v)

/-- A load of a pair from memory: the two reads come first. -/
theorem runs_of_loadPair {p : Pair} (he : exec i s = .next (((s.afterReadWord a).setPair p (s.memWord a)).cost n)) :
    Runs i s { cost := n, places := Pair.places p, calls := s.wordCalls a } fun t => t.pair p = s.wordAnswer a :=
  .charge he ((s.afterReadWord_within a).comp (State.setPair_within _ p _)) (State.pair_setPair _ p _)

/-- A store of a word: on RAM of the canonical form its two bytes are seen at their addresses only. -/
theorem runs_of_storeWord (hw : Memory.wf s.bus.ram = true) (he : exec i s = .next ((s.memWriteWord a v).cost n)) :
    Runs i s { cost := n, stores := [a, a + 1], calls := [.writeByte (a + 1) (hi v), .writeByte a (lo v)] }
      fun t => Holds s t a (lo v) ∧ Holds s t (a + 1) (hi v) :=
  have ⟨hk, hv⟩ := State.memWriteWord_within hw a v
  .charge he hk hv

/-- A push, on RAM of the canonical form. -/
theorem runs_of_push (hw : Memory.wf s.bus.ram = true) (he : exec i s = .next ((s.push16 v).cost n)) :
    Runs i s { cost := n, places := [.sp], stores := s.pushStores, calls := s.pushCalls v } fun t => Pushed s t v :=
  have ⟨hk, hv⟩ := State.push16_within hw v
  .charge he hk hv

end WordKinds

/-! ### The obligations -/

/-- Settles O31: a pair, SP among them, or an index register takes a word, and the word one up or down is a sum modulo
65536. -/
theorem pairForms : Obligations.PairForms := fun s =>
  ⟨fun _ _ => runs_of_setPair rfl,
   fun _ _ => runs_of_setIdx rfl,
   runs_of_setPair (p := .sp) rfl,
   fun _ => runs_of_setPair (p := .sp) rfl,
   fun p => (runs_of_setPair rfl).imp fun _ h => h ▸ word_succ_toNat (s.pair p),
   fun p => (runs_of_setPair rfl).imp fun _ h => h ▸ word_pred_toNat (s.pair p),
   fun x => (runs_of_setIdx rfl).imp fun _ h => h ▸ word_succ_toNat (s.idx x),
   fun x => (runs_of_setIdx rfl).imp fun _ h => h ▸ word_pred_toNat (s.idx x)⟩

/-- Settles O32: three loads of a word, of HL as the pair it is, and three stores of one, HL by its two halves. -/
theorem absoluteWordForms : Obligations.AbsoluteWordForms := fun s nn hw =>
  have storeHl : Runs (.ldMemNnHl nn) s _ _ := runs_of_storeWord hw rfl
  ⟨runs_of_loadPair (p := .hl) rfl,
   fun _ => runs_of_loadPair rfl,
   fun x => .charge rfl ((s.afterReadWord_within nn).comp (State.setIdx_within _ x _)) (State.idx_setIdx_same _ x _),
   by simpa using storeHl,
   fun _ => runs_of_storeWord hw rfl,
   fun _ => runs_of_storeWord hw rfl⟩

/-- Settles O33: a push of a word, or the two reads of a pop with SP moved past them, and then its destination. -/
theorem pushAndPopForms : Obligations.PushAndPopForms := fun s hw =>
  ⟨fun _ => runs_of_push hw rfl,
   fun _ => runs_of_push hw rfl,
   fun p => .charge rfl (s.afterPop_within.comp (State.setStackPair_within _ p _))
     ⟨State.setStackPair_sp _ p _, State.stackPair_setStackPair _ p _⟩,
   fun x => .charge rfl (s.afterPop_within.comp (State.setIdx_within _ x _)) ⟨rfl, State.idx_setIdx_same _ x _⟩⟩

end Sys2Proof.Machine

/-! The exchange and block group (42_exchange_block.md): the exchanges of registers and with the top of the stack, and
one iteration of a block transfer or search, what each changes, costs and calls. -/

namespace Sys2Proof.Machine

/-! ### Exchanges of registers (rules R270 to R272) -/

/-- DE and HL exchanged. -/
def State.swapDeHl (s : State) : State :=
  { s with main := { s.main with d := s.main.h, e := s.main.l, h := s.main.d, l := s.main.e } }

@[simp] theorem State.hi_de (s : State) : hi s.de = s.main.d := hi_w16 s.main.d s.main.e
@[simp] theorem State.lo_de (s : State) : lo s.de = s.main.e := lo_w16 s.main.d s.main.e

theorem State.setDe_setHl_eq_swapDeHl (s : State) : (s.setDe s.hl).setHl s.de = s.swapDeHl := by
  simp [State.setHl, State.setDe, State.swapDeHl]

theorem exec_exDeHl (s : State) : exec .exDeHl s = .next (s.swapDeHl.cost 4) :=
  congrArg (fun t : State => Host.Outcome.next (t.cost 4)) s.setDe_setHl_eq_swapDeHl

theorem State.swapDeHl_within (s : State) : Within { cost := 0, places := [.d, .e, .h, .l] } s s.swapDeHl := by
  refine ⟨rfl, fun p hp => ?_, .of_eq rfl _, ⟨rfl, rfl⟩, rfl⟩
  cases p with
  | d | e | h | l => exact absurd (by decide) hp
  | _ => rfl

theorem State.swapAf_within (s : State) : Within { cost := 0, places := [.a, .f, .a', .f'] } s s.swapAf := by
  refine ⟨rfl, fun p hp => ?_, .of_eq rfl _, ⟨rfl, rfl⟩, rfl⟩
  cases p with
  | a | f | a' | f' => exact absurd (by decide) hp
  | _ => rfl

theorem State.swapBanks_within (s : State) :
    Within { cost := 0, places := [.b, .c, .d, .e, .h, .l, .b', .c', .d', .e', .h', .l'] } s s.swapBanks := by
  refine ⟨rfl, fun p hp => ?_, .of_eq rfl _, ⟨rfl, rfl⟩, rfl⟩
  cases p with
  | b | c | d | e | h | l | b' | c' | d' | e' | h' | l' => exact absurd (by decide) hp
  | _ => rfl

/-- An exchange that undoes itself and does not see the T-state counter, done twice, leaves 8 T-states and no more. -/
theorem exec_twice_of_involution {i : Instr} {swap : State → State} {s t : State}
    (he : ∀ s, exec i s = .next ((swap s).cost 4)) (hinv : swap ((swap s).cost 4) = s.cost 4)
    (h : exec i s = .next t) : exec i t = .next { s with tstates := s.tstates + 8 } := by
  obtain rfl : (swap s).cost 4 = t := Host.Outcome.next.inj ((he s).symm.trans h)
  rw [he, hinv]
  rfl

/-- Settles O34: each is an exchange of named registers, which undoes itself. -/
theorem registerExchanges : Obligations.RegisterExchanges := by
  refine fun s => ⟨?_, ?_, ?_, ?_⟩
  · exact .charge (exec_exDeHl s) s.swapDeHl_within ⟨rfl, rfl⟩
  · exact .charge rfl s.swapAf_within ⟨rfl, rfl, rfl, rfl⟩
  · exact .charge rfl s.swapBanks_within ⟨rfl, rfl, rfl, rfl, rfl, rfl, rfl, rfl, rfl, rfl, rfl, rfl⟩
  · rintro i (rfl | rfl | rfl) t
    · exact exec_twice_of_involution exec_exDeHl rfl
    · exact exec_twice_of_involution (swap := State.swapAf) (fun _ => rfl) rfl
    · exact exec_twice_of_involution (swap := State.swapBanks) (fun _ => rfl) rfl

/-! ### Exchanges with the top of the stack (rules R273, R274) -/

/-- A byte held is held on, where nothing is stored to its address. -/
theorem Holds.keep {s t u : State} {a : Word} {v : Byte} {stores : List Word} (h : Holds s t a v)
    (hk : RamKeepsBut stores t u) (ha : a ∉ stores) : Holds s u a v := fun hf => (hk a ha).trans (h hf)

/-- Two reads of the word at SP, low byte first, and two writes, high byte first: SP itself stays. -/
theorem State.exchangeTop_within {s : State} (hw : Memory.wf s.bus.ram = true) (v : Word) :
    Within { cost := 0, stores := [s.sp, s.sp + 1]
             calls := [.writeByte s.sp (lo v), .writeByte (s.sp + 1) (hi v)] ++ s.wordCalls s.sp }
        s (s.exchangeTop v) ∧
      Holds s (s.exchangeTop v) s.sp (lo v) ∧ Holds s (s.exchangeTop v) (s.sp + 1) (hi v) := by
  have hw' : Memory.wf (s.afterReadWord s.sp).bus.ram = true := hw
  obtain ⟨hhigh, high⟩ := State.memWrite_within hw' (s.sp + 1) (hi v)
  obtain ⟨hlow, low⟩ := State.memWrite_within (State.wf_memWrite (a := s.sp + 1) (v := hi v) hw') s.sp (lo v)
  have hk := ((s.afterReadWord_within s.sp).comp hhigh).comp hlow
  refine ⟨hk.weaken rfl (fun _ => id) (fun _ => (List.Perm.swap _ _ _).mem_iff.1) rfl, fun hf => low ?_, fun hf => ?_⟩
  · simpa using hf
  · obtain ⟨-, -, hkeeps, -⟩ := hlow
    exact high.keep hkeeps (by simp) (by simpa using hf)

/-- Settles O35: the exchange of the memory side, and then the register takes the word read. -/
theorem stackTopExchanges : Obligations.StackTopExchanges := by
  refine fun s hw => ⟨?_, fun x => ?_⟩
  · obtain ⟨hk, hheld⟩ := State.exchangeTop_within hw s.hl
    rw [State.hi_hl, State.lo_hl] at hk hheld
    exact .charge rfl (hk.comp (State.setPair_within _ .hl (s.memWord s.sp))) ⟨State.pair_setPair _ .hl _, hheld⟩
  · obtain ⟨hk, hheld⟩ := State.exchangeTop_within hw (s.idx x)
    exact .charge rfl (hk.comp (State.setIdx_within _ x (s.memWord s.sp))) ⟨State.idx_setIdx_same _ x _, hheld⟩

/-! ### The end of an iteration of a block instruction (rule R275) -/

theorem State.repeatIf_eq (s : State) (again : Bool) :
    s.repeatIf again = (s.setPc (blockPc again s)).cost (blockCost again) := by
  cases again <;> rfl

/-- Only a repeating form may move PC. -/
theorem State.repeatIf_within (s : State) (rep more : Bool) :
    Within { cost := blockCost (rep && more), places := if rep then [.pc] else [] } s (s.repeatIf (rep && more)) := by
  cases rep with
  | false => exact s.cost_within 16
  | true =>
    rw [State.repeatIf_eq]
    exact .charge (s.setPc_within _)

/-- A block instruction is its iteration and the end of it. -/
theorem runs_of_iteration {i : Instr} {s u : State} {rep more : Bool} {places : List Place} {stores : List Word}
    {calls : List BusCall} {post : State → Prop} (he : exec i s = .next (u.repeatIf (rep && more)))
    (hk : Within { cost := 0, places, stores, calls } s u)
    (hp : post ((u.setPc (blockPc (rep && more) u)).cost (blockCost (rep && more)))) :
    Runs i s { cost := blockCost (rep && more), places := places ++ if rep then [.pc] else [], stores, calls } post :=
  .intro _ he (by simpa using hk.comp (u.repeatIf_within rep more)) (u.repeatIf_eq _ ▸ hp)

/-- What a block instruction adds to its addresses: `moved down` is that sum. -/
def blockStep (down : Bool) : Word := if down then -1 else 1

theorem add_blockStep (down : Bool) (w : Word) : w + blockStep down = moved down w := by
  cases down with
  | false => rfl
  | true => exact (BitVec.sub_eq_add_neg w 1).symm

/-! ### Block transfer (rules R276 to R279) -/

/-- The flags of LDI and LDD: S, Z and C of the old F (rule R276). -/
theorem ldiFlags_flags (f a v : Byte) (bc : Word) : FlagBits.of (ldiFlags f a v bc) =
    { FlagBits.of f with
      h := false, n := false, pv := bc != 0, f3 := (a + v).getLsbD 3, f5 := (a + v).getLsbD 1 } := by
  simp only [FlagBits.of, ldiFlags, blockXY, BitVec.getLsbD_or, BitVec.getLsbD_and, bitIf_getLsbD]
  simp

/-- One byte moves from HL to DE, the three pairs move on, and F tells of it. -/
theorem State.blockLoad_within {s : State} (hw : Memory.wf s.bus.ram = true) (d : Word) :
    Within { cost := 0, places := [.b, .c, .d, .e, .h, .l, .f], stores := [s.de]
             calls := [.writeByte s.de (s.memByte s.hl), s.readCall s.hl] } s (s.blockLoad d) ∧
      Holds s (s.blockLoad d) s.de (s.memByte s.hl) := by
  have hw' : Memory.wf (s.afterRead s.hl).bus.ram = true := hw
  obtain ⟨hstore, held⟩ := State.memWrite_within hw' s.de (s.memByte s.hl)
  have hregs : Within { cost := 0, places := [.d, .e, .h, .l, .b, .c, .f] } _ (s.blockLoad d) :=
    (((State.setPair_within _ .de _).comp (State.setPair_within _ .hl _)).comp (State.setPair_within _ .bc _)).comp
      (State.setF_within _ _)
  have hplaces : ∀ p, p ∈ [Place.d, .e, .h, .l, .b, .c, .f] → p ∈ [Place.b, .c, .d, .e, .h, .l, .f] := by decide
  exact ⟨(((s.afterRead_within s.hl).comp hstore).comp hregs).weaken rfl hplaces (fun _ => id) rfl, held⟩

theorem State.blockLoad_bc (s : State) (d : Word) : (s.blockLoad d).bc = s.bc - 1 := w16_hi_lo (s.bc - 1)
theorem State.blockLoad_de (s : State) (d : Word) : (s.blockLoad d).de = s.de + d := w16_hi_lo (s.de + d)
theorem State.blockLoad_hl (s : State) (d : Word) : (s.blockLoad d).hl = s.hl + d := w16_hi_lo (s.hl + d)

theorem exec_blockTransfer (down rep : Bool) (s : State) : exec (blockTransfer down rep) s =
    .next ((s.blockLoad (blockStep down)).repeatIf (rep && s.bc - 1 != 0)) := by
  rw [← s.blockLoad_bc (blockStep down)]
  cases down <;> cases rep <;> rfl

/-- Settles O36: an iteration of LDI or LDD and its end; the four forms differ in `blockStep` and in whether they may
repeat. -/
theorem blockTransferForms : Obligations.BlockTransferForms := by
  intro s down rep hw v n again
  obtain ⟨hk, hheld⟩ := State.blockLoad_within hw (blockStep down)
  exact runs_of_iteration (exec_blockTransfer down rep s) hk
    ⟨hheld, s.blockLoad_bc _, (s.blockLoad_de _).trans (add_blockStep down s.de),
      (s.blockLoad_hl _).trans (add_blockStep down s.hl), rfl, ldiFlags_flags s.main.f s.main.a v (s.bc - 1)⟩

/-! ### Block search (rules R280 to R283) -/

/-- The half borrow of a difference of bytes (10_state.md rule R67). -/
theorem hc_of_sub (a v : Byte) : hc a v (a - v) = decide (a.toNat % 16 < v.toNat % 16) := by
  have e : BitVec.ofInt 8 ((a.toNat : Int) - v.toNat - (0 : Nat)) = a - v := by
    refine BitVec.eq_of_toNat_eq ?_
    rw [ofInt_sub_byte a v 0 (Nat.zero_le 1), BitVec.toNat_sub]
    omega
  have h := hc_sub a v 0 (Nat.zero_le 1)
  rwa [e] at h

/-- The flags of CPI and CPD: C of the old F (rule R280). -/
theorem cpiFlags_flags (f a v : Byte) (bc : Word) :
    let h : Bool := a.toNat % 16 < v.toNat % 16
    let n := if h then a - v - 1 else a - v
    FlagBits.of (cpiFlags f a v bc) =
      { s := (a - v).getLsbD 7, z := a - v == 0, f5 := n.getLsbD 1, h := h, f3 := n.getLsbD 3, pv := bc != 0
        n := true, c := f.getLsbD 0 } := by
  intro h n
  have hn : a - v - bitIf h 1 = n := by
    cases hh : h <;> simp [n, bitIf, hh]
  simp only [FlagBits.of, cpiFlags, hc_of_sub, blockXY, BitVec.getLsbD_or, BitVec.getLsbD_and, bitIf_getLsbD]
  rw [hn]
  simp [h]

/-- One byte is read at HL, HL and BC move on, and F tells of it; A is not among the places. -/
theorem State.blockCompare_within (s : State) (d : Word) :
    Within { cost := 0, places := [.b, .c, .h, .l, .f], calls := [s.readCall s.hl] } s (s.blockCompare d) := by
  have hregs : Within { cost := 0, places := [.h, .l, .b, .c, .f] } _ (s.blockCompare d) :=
    ((State.setPair_within _ .hl _).comp (State.setPair_within _ .bc _)).comp (State.setF_within _ _)
  have hplaces : ∀ p, p ∈ [Place.h, .l, .b, .c, .f] → p ∈ [Place.b, .c, .h, .l, .f] := by decide
  exact ((s.afterRead_within s.hl).comp hregs).weaken rfl hplaces (fun _ => id) rfl

theorem State.blockCompare_bc (s : State) (d : Word) : (s.blockCompare d).bc = s.bc - 1 := w16_hi_lo (s.bc - 1)
theorem State.blockCompare_hl (s : State) (d : Word) : (s.blockCompare d).hl = s.hl + d := w16_hi_lo (s.hl + d)

theorem exec_blockSearch (down rep : Bool) (s : State) : exec (blockSearch down rep) s =
    .next ((s.blockCompare (blockStep down)).repeatIf
      (rep && (s.bc - 1 != 0 && s.main.a - s.memByte s.hl != 0))) := by
  rw [← s.blockCompare_bc (blockStep down)]
  cases down <;> cases rep <;> rfl

/-- Settles O37: an iteration of CPI or CPD and its end, which is a repeat only where no match is found too. -/
theorem blockSearchForms : Obligations.BlockSearchForms := by
  intro s down rep v r h n again
  have hagain : again = (rep && (s.bc - 1 != 0 && r != 0)) := Bool.and_assoc _ _ _
  rw [hagain]
  exact runs_of_iteration (exec_blockSearch down rep s) (s.blockCompare_within _)
    ⟨s.blockCompare_bc _, (s.blockCompare_hl _).trans (add_blockStep down s.hl), rfl,
      cpiFlags_flags s.main.f s.main.a v (s.bc - 1)⟩

end Sys2Proof.Machine

/-! The 8-bit arithmetic group (43_alu8.md): an operation on A is a read of its operand, the new A and the new F,
whatever the operand; INC and DEC are a read, a write of their operand and the new F. -/

namespace Sys2Proof.Machine

/-! ### The operations on A and their operands (rules R310 to R349) -/

/-- The field `alu[y]` that names an operation (30_encoding.md rule R147). -/
def AluOp.code : AluOp → BitVec 3
  | .add => 0 | .adc => 1 | .sub => 2 | .sbc => 3 | .and => 4 | .xor => 5 | .or => 6 | .cp => 7

/-- The state once the operand is read. -/
def Source.afterRead (s : State) : Source → State
  | .memHl => s.afterRead s.hl
  | .memIdx x d => s.afterRead (s.ea x d)
  | .reg _ | .imm _ | .half _ _ => s

theorem Source.afterRead_main (s : State) (o : Source) : (o.afterRead s).main = s.main := by
  cases o <;> rfl

theorem Source.afterRead_within (s : State) (o : Source) :
    Within { cost := 0, calls := o.calls s } s (o.afterRead s) := by
  cases o with
  | memHl => exact s.afterRead_within s.hl
  | memIdx x d => exact s.afterRead_within (s.ea x d)
  | reg | imm | half => exact ⟨rfl, .refl _ s, .refl _ s, ⟨rfl, rfl⟩, rfl⟩

/-- Eight operations on five kinds of operand: one meaning. -/
theorem Source.exec_instr (op : AluOp) (o : Source) (s : State) :
    exec (o.instr op.code) s = .next (((o.afterRead s).alu op (o.value s)).cost o.cost) := by
  cases o <;> cases op <;> rfl

/-- CP is the one operation that leaves A (rule R307). -/
def AluOp.places : AluOp → List Place
  | .cp => [.f]
  | _ => [.a, .f]

theorem State.alu_within (op : AluOp) (v : Byte) (s : State) :
    Within { cost := 0, places := op.places } s (s.alu op v) := by
  have h : Within { cost := 0, places := [.a, .f] } s (s.alu op v) := (s.setA_within _).comp (State.setF_within _ _)
  cases op with
  | cp => exact s.setF_within _
  | add | adc | sub | sbc | and | xor | or => exact h

/-- What an operation on A changes, costs and calls, and the A and F it leaves. -/
theorem Source.runs_alu (op : AluOp) (o : Source) (s : State) :
    Runs (o.instr op.code) s { cost := o.cost, places := op.places, calls := o.calls s } fun t =>
      t.main.a = (alu op s.main.a s.main.f (o.value s)).1 ∧
        t.flags = FlagBits.of (alu op s.main.a s.main.f (o.value s)).2 := by
  refine .charge (o.exec_instr op s) ((o.afterRead_within s).comp (State.alu_within op (o.value s) _)) ?_
  rw [← o.afterRead_main s]
  exact ⟨rfl, rfl⟩

/-! ### What the operations leave in A and F (rules R300 to R307) -/

section AandF

variable {i : Instr} {s : State} {k : Footprint} {v : Byte} {c : Bool}

/-- A sum, in exact arithmetic. -/
theorem runs_of_add8 (h : Runs i s k fun t =>
    t.main.a = (add8 s.main.a v c).1 ∧ t.flags = FlagBits.of (add8 s.main.a v c).2) : Runs i s k fun t =>
    t.main.a = BitVec.ofNat 8 (s.main.a.toNat + v.toNat + c.toNat) ∧
      t.flags = .result t.main.a (16 ≤ s.main.a.toNat % 16 + v.toNat % 16 + c.toNat)
        (overflows8 (s.main.a.toInt + v.toInt + c.toNat)) false (256 ≤ s.main.a.toNat + v.toNat + c.toNat) := by
  refine h.imp fun t ⟨ha, hf⟩ => ⟨ha, ?_⟩
  rw [hf, ha]
  exact add8_flags s.main.a v c

/-- A difference, in exact arithmetic. -/
theorem runs_of_sub8 (h : Runs i s k fun t =>
    t.main.a = (sub8 s.main.a v c).1 ∧ t.flags = FlagBits.of (sub8 s.main.a v c).2) : Runs i s k fun t =>
    t.main.a = BitVec.ofInt 8 ((s.main.a.toNat : Int) - v.toNat - c.toNat) ∧
      t.flags = .result t.main.a (s.main.a.toNat % 16 < v.toNat % 16 + c.toNat)
        (overflows8 (s.main.a.toInt - v.toInt - c.toNat)) true (s.main.a.toNat < v.toNat + c.toNat) := by
  refine h.imp fun t ⟨ha, hf⟩ => ⟨ha, ?_⟩
  rw [hf, ha]
  exact sub8_flags s.main.a v c

end AandF

/-- With no borrow the exact difference, narrowed, is that of the bytes. -/
theorem sub8_result (a v : Byte) : (sub8 a v false).1 = a - v := by
  refine BitVec.eq_of_toNat_eq ?_
  show (BitVec.ofInt 8 ((a.toNat : Int) - v.toNat - (0 : Nat))).toNat = _
  rw [ofInt_sub_byte a v 0 (Nat.zero_le 1), BitVec.toNat_sub]
  omega

/-- F5 and F3 taken from a byte. -/
theorem takeXY_flags (f v : Byte) : FlagBits.of ((f &&& ~~~0x28) ||| (v &&& 0x28)) =
    { FlagBits.of f with f5 := v.getLsbD 5, f3 := v.getLsbD 3 } := by
  simp [FlagBits.of]

theorem setH_flags (f : Byte) : FlagBits.of (f ||| 0x10) = { FlagBits.of f with h := true } := by
  simp [FlagBits.of]

/-- The flags of CP: those of SUB, with F5 and F3 from the operand (rule R307). -/
theorem cp_flags (a f v : Byte) : FlagBits.of (alu .cp a f v).2 =
    { FlagBits.result (a - v) (a.toNat % 16 < v.toNat % 16) (overflows8 (a.toInt - v.toInt)) true
        (a.toNat < v.toNat) with f5 := v.getLsbD 5, f3 := v.getLsbD 3 } := by
  rw [alu, takeXY_flags, sub8_flags, sub8_result]
  simp

/-- The flags of AND: those of the result, with H set (rule R304). -/
theorem and_flags (a f v : Byte) :
    FlagBits.of (alu .and a f v).2 = .result (a &&& v) true (evenOnes (a &&& v)) false false := by
  rw [alu, setH_flags, sz53p_flags]
  rfl

/-- Settles O38: ADD is the sum with no carry, ADC the sum with C. -/
theorem additionForms : Obligations.AdditionForms := fun s o withCarry =>
  match withCarry with
  | false => runs_of_add8 (o.runs_alu .add s)
  | true => runs_of_add8 (o.runs_alu .adc s)

/-- Settles O39: SUB is the difference with no borrow, SBC the difference with C; CP keeps the flags alone. -/
theorem subtractionForms : Obligations.SubtractionForms := fun s o =>
  ⟨fun withBorrow =>
    match withBorrow with
    | false => runs_of_sub8 (o.runs_alu .sub s)
    | true => runs_of_sub8 (o.runs_alu .sbc s),
   (o.runs_alu .cp s).imp fun _ ⟨_, hf⟩ =>
     hf.trans (cp_flags s.main.a s.main.f (o.value s))⟩

/-- Settles O40: the three operations differ in the result and in H. -/
theorem logicForms : Obligations.LogicForms := fun s o =>
  ⟨(o.runs_alu .and s).imp fun _ ⟨ha, hf⟩ =>
     ⟨ha, hf.trans (and_flags s.main.a s.main.f (o.value s))⟩,
   (o.runs_alu .xor s).imp fun _ ⟨ha, hf⟩ =>
     ⟨ha, hf.trans (sz53p_flags (s.main.a ^^^ o.value s))⟩,
   (o.runs_alu .or s).imp fun _ ⟨ha, hf⟩ =>
     ⟨ha, hf.trans (sz53p_flags (s.main.a ||| o.value s))⟩⟩

/-! ### An operand read and written back (20_memory.md rule R110) -/

/-- The state once the operand is read and takes v. -/
def Target.afterWrite (s : State) (v : Byte) : Target → State
  | .reg r => s.setReg r v
  | .memHl => (s.afterRead s.hl).memWrite s.hl v
  | .memIdx x d => (s.afterRead (s.ea x d)).memWrite (s.ea x d) v
  | .half x k => s.setHalf x k v
  | .copy x d r => ((s.afterRead (s.ea x d)).memWrite (s.ea x d) v).setReg r v

/-- One read, then one write of the same address. -/
theorem State.readThenWrite_within {s : State} (hw : Memory.wf s.bus.ram = true) (a : Word) (v : Byte) :
    Within { cost := 0, stores := [a], calls := [.writeByte a v, s.readCall a] } s
        ((s.afterRead a).memWrite a v) ∧ Holds s ((s.afterRead a).memWrite a v) a v :=
  have hw' : Memory.wf (s.afterRead a).bus.ram = true := hw
  have ⟨hk, hheld⟩ := State.memWrite_within hw' a v
  ⟨(s.afterRead_within a).comp hk, hheld⟩

theorem Target.afterWrite_within {s : State} (hw : Memory.wf s.bus.ram = true) (v : Byte) (o : Target) :
    Within { cost := 0, places := o.places, stores := o.stores s, calls := o.calls s v } s (o.afterWrite s v) ∧
      o.holds s (o.afterWrite s v) v := by
  cases o with
  | reg r => exact ⟨s.setReg_within r v, s.reg_setReg_same r v⟩
  | memHl => exact State.readThenWrite_within hw s.hl v
  | memIdx x d => exact State.readThenWrite_within hw (s.ea x d) v
  | half x k => exact ⟨s.setHalf_within x k v, s.setHalf_holds x k v⟩
  | copy x d r =>
    obtain ⟨hk, hheld⟩ := State.readThenWrite_within hw (s.ea x d) v
    exact ⟨hk.comp (State.setReg_within _ r v), State.reg_setReg_same _ r v, hheld⟩

theorem State.reg_setF (s : State) (f : Byte) (r : Reg8) : (s.setF f).reg r = s.reg r := by
  cases r <;> rfl

/-- No operand is in F or in the T-state counter. -/
theorem Target.holds_setF_cost {s u : State} {v : Byte} {o : Target} (h : o.holds s u v) (f : Byte) (n : Nat) :
    o.holds s ((u.setF f).cost n) v := by
  cases o with
  | reg r => exact (u.reg_setF f r).trans h
  | copy x d r =>
    obtain ⟨hreg, hheld⟩ := h
    exact ⟨(u.reg_setF f r).trans hreg, hheld⟩
  | half x k => cases k <;> exact h
  | memHl | memIdx => exact h

/-- An instruction that reads its operand, writes it back and sets F. -/
theorem Target.runs_of_afterWrite {i : Instr} {s : State} {o : Target} {v f : Byte} {n : Nat}
    (hw : Memory.wf s.bus.ram = true) (he : exec i s = .next (((o.afterWrite s v).setF f).cost n)) :
    Runs i s { cost := n, places := .f :: o.places, stores := o.stores s, calls := o.calls s v } fun t =>
      o.holds s t v ∧ t.flags = FlagBits.of f := by
  obtain ⟨hk, hheld⟩ := o.afterWrite_within hw v
  have hplaces : ∀ p, p ∈ o.places ++ [.f] → p ∈ .f :: o.places := fun p => by simp [or_comm]
  exact .charge he ((hk.comp (State.setF_within _ f)).weaken rfl hplaces (by simp) rfl)
    ⟨Target.holds_setF_cost hheld f n, rfl⟩

/-! ### INC and DEC (rules R308, R309, R350 to R357) -/

theorem Target.exec_inc {i : Instr} {o : Target} (h : o.inc = some i) (s : State) : exec i s =
    .next (((o.afterWrite s (o.old s + 1)).setF (inc8 s.main.f (o.old s)).2).cost o.incDecCost) := by
  cases o <;> cases h <;> rfl

theorem Target.exec_dec {i : Instr} {o : Target} (h : o.dec = some i) (s : State) : exec i s =
    .next (((o.afterWrite s (o.old s - 1)).setF (dec8 s.main.f (o.old s)).2).cost o.incDecCost) := by
  cases o <;> cases h <;> rfl

/-- Settles O41: the operand takes the byte one up or one down, and F is that of `inc8` or `dec8`. -/
theorem incrementAndDecrementForms : Obligations.IncrementAndDecrementForms := fun s o _ hw =>
  ⟨fun hi => (o.runs_of_afterWrite hw (o.exec_inc hi s)).imp fun _ ⟨hheld, hf⟩ =>
     ⟨hheld, hf.trans (inc8_flags s.main.f (o.old s))⟩,
   fun hd => (o.runs_of_afterWrite hw (o.exec_dec hd s)).imp fun _ ⟨hheld, hf⟩ =>
     ⟨hheld, hf.trans (dec8_flags s.main.f (o.old s))⟩⟩

/-! ### An operand read again -/

theorem KeepsBut.hl_eq {ps : List Place} {s t : State} (hk : KeepsBut ps s t) (hh : .h ∉ ps) (hl : .l ∉ ps) :
    t.hl = s.hl :=
  congrArg₂ w16 (BitVec.eq_of_toNat_eq (hk .h hh)) (BitVec.eq_of_toNat_eq (hk .l hl))

theorem KeepsBut.idx_eq {ps : List Place} {s t : State} (hk : KeepsBut ps s t) {x : Idx} (hx : Idx.place x ∉ ps) :
    t.idx x = s.idx x := by
  cases x with
  | ix => exact BitVec.eq_of_toNat_eq (hk .ix hx)
  | iy => exact BitVec.eq_of_toNat_eq (hk .iy hx)

theorem SameOwner.isForeign_eq {s t : State} (h : SameOwner s t) (a : Word) :
    t.bus.isForeign a = s.bus.isForeign a := by
  rw [Bus.isForeign, Bus.isForeign, h.1]

section ReadAgain

variable {s t : State} {o : Target} {v : Byte} {a : Word}

/-- No result goes to the registers that its own address is made of. -/
theorem Target.address_eq (hk : KeepsBut (.tstates :: .f :: o.places) s t) : o.address t = o.address s := by
  cases o with
  | reg | half => rfl
  | memHl => exact congrArg some (hk.hl_eq (by decide) (by decide))
  | memIdx x d =>
    have hx : Idx.place x ∉ [.tstates, .f] := by cases x <;> decide
    exact congrArg (fun w => some (w + sext16 d)) (KeepsBut.idx_eq hk hx)
  | copy x d r =>
    have hx : Idx.place x ∉ [.tstates, .f, Reg8.place r] := by cases x <;> cases r <;> decide
    exact congrArg (fun w => some (w + sext16 d)) (KeepsBut.idx_eq hk hx)

theorem Target.old_of_address (ha : o.address s = some a) : o.old s = s.memByte a := by
  cases o <;> cases ha <;> rfl

theorem Target.holds_of_address (ha : o.address s = some a) (h : o.holds s t v) : Holds s t a v := by
  cases o with
  | memHl | memIdx => cases ha; exact h
  | copy => cases ha; exact h.2
  | reg | half => cases ha

theorem Target.old_of_no_address (ha : o.address s = none) (h : o.holds s t v) : o.old t = v := by
  cases o with
  | reg => exact h
  | half x k => cases k <;> exact h.1
  | memHl | memIdx | copy => cases ha

/-- An operand that holds a byte reads as that byte: in memory, where the bus owner holds its address as plain RAM. -/
theorem Target.old_of_holds (hk : KeepsBut (.tstates :: .f :: o.places) s t) (howner : SameOwner s t)
    (hp : ∀ a, o.address s = some a → s.bus.isForeign a = false) (h : o.holds s t v) : o.old t = v := by
  cases ha : o.address s with
  | none => exact o.old_of_no_address ha h
  | some a =>
    have hplain := hp a ha
    rw [Target.old_of_address ((Target.address_eq hk).trans ha), State.memByte,
      Bus.memAnswer_plain ((howner.isForeign_eq a).trans hplain)]
    exact o.holds_of_address ha h hplain

end ReadAgain

@[simp] theorem FlagBits.result_c (v : Byte) (h pv n c : Bool) : (FlagBits.result v h pv n c).c = c := rfl

/-- Settles O42: INC leaves an operand that reads one up at the address it had, and DEC takes it down again. -/
theorem decrementUndoesIncrement : Obligations.DecrementUndoesIncrement := by
  intro s t o i j hw hi hj hp he
  obtain ⟨t', he', ⟨-, hk, -, howner, -⟩, hheld, hflags⟩ := (incrementAndDecrementForms s o i hw).1 hi
  obtain rfl : t' = t := Host.Outcome.next.inj (he'.symm.trans he)
  have hcalls : Result.CallsAtMost i.mostCalls s.bus (.next t') := he ▸ exec_calls i s
  obtain ⟨_, -, hcalls⟩ := hcalls
  have hp' : ∀ a, o.address t' = some a → t'.bus.isForeign a = false := fun a ha =>
    (howner.isForeign_eq a).trans (hp a ((Target.address_eq hk).symm.trans ha))
  obtain ⟨u, hu, ⟨-, hk', -, howner', -⟩, hheld', hflags'⟩ :=
    (incrementAndDecrementForms t' o j (hcalls.canonical hw)).2 hj
  refine ⟨u, hu, ?_, by rw [hflags', FlagBits.result_c, hflags, FlagBits.result_c]⟩
  calc o.old u = o.old t' - 1 := Target.old_of_holds hk' howner' hp' hheld'
    _ = o.old s + 1 - 1 := by rw [Target.old_of_holds hk howner hp hheld]
    _ = o.old s := BitVec.add_sub_cancel _ _

end Sys2Proof.Machine

/-! The general-purpose operations and CPU control (44_general_cpu.md): the table of DAA and the other operations on A and
F, what the control instructions and a halted cycle set, and what an ignored index byte costs. -/

namespace Sys2Proof.Machine

/-! ### DAA (rule R370) -/

/-- The low digit of a byte. -/
theorem low_digit_toNat (a : Byte) : (a &&& 0x0F).toNat = a.toNat % 16 := by
  rw [BitVec.toNat_and]
  exact Nat.and_two_pow_sub_one_eq_mod a.toNat 4

/-- The table row by row is two tests, one for each digit of the correction: of H and the low digit, and of C and the
whole of A, which is above 0x99 where its digits are above 9 and 9, or 9 and any above 9. -/
theorem daaRow_eq (c h : Bool) (a : Byte) : daaRow c h (a.toNat / 16) (a.toNat % 16) =
    (bitIf (h || decide (9 < a.toNat % 16)) 0x06 ||| bitIf (c || decide (0x99 < a.toNat)) 0x60,
      c || decide (0x99 < a.toNat)) := by
  obtain hl | hl := Nat.lt_or_ge 9 (a.toNat % 16)
  · have hbig : 0x99 < a.toNat ↔ ¬ a.toNat / 16 ≤ 8 := by omega
    by_cases hh : a.toNat / 16 ≤ 8 <;> cases c <;> cases h <;> simp [daaRow, hl, Nat.not_le.2 hl, hbig, hh, bitIf]
  · have hbig : 0x99 < a.toNat ↔ ¬ a.toNat / 16 ≤ 9 := by omega
    by_cases hh : a.toNat / 16 ≤ 9 <;> cases c <;> cases h <;> simp [daaRow, hl, Nat.not_lt.2 hl, hbig, hh, bitIf]

/-- The row of the table that DAA goes by. -/
def daaRowOf (a f : Byte) : Byte × Bool := daaRow (flagC f) (flagH f) (a.toNat / 16) (a.toNat % 16)

theorem daaCorrection_eq (a f : Byte) : daaCorrection a f = (daaRowOf a f).1 := by
  rw [daaRowOf, daaRow_eq, daaCorrection, low_digit_toNat]

theorem daaCarry_eq (a f : Byte) : (flagC f || decide (0x99 < a.toNat)) = (daaRowOf a f).2 := by
  rw [daaRowOf, daaRow_eq]

/-- The low digit of the correction. -/
theorem daaRowOf_low_digit (a f : Byte) : (daaRowOf a f).1.toNat % 16 =
    if flagH f ∨ 9 < a.toNat % 16 then 6 else 0 := by
  rw [daaRowOf, daaRow_eq]
  by_cases hl : flagH f ∨ 9 < a.toNat % 16 <;> cases (flagC f || decide (0x99 < a.toNat)) <;> simp [hl, bitIf]

/-- With no carry the exact sum, narrowed, is that of the bytes. -/
theorem add8_result (a v : Byte) : (add8 a v false).1 = a + v := by
  refine BitVec.eq_of_toNat_eq ?_
  rw [BitVec.toNat_add]
  exact BitVec.toNat_ofNat _ _

/-- The corrected A. -/
theorem daa_result (a f : Byte) : (daa a f).1 =
    if flagN f then a - (daaRowOf a f).1 else a + (daaRowOf a f).1 := by
  rw [daa, daaCorrection_eq]
  cases flagN f with
  | true => exact sub8_result a _
  | false => exact add8_result a _

/-- PV and C given anew. -/
theorem setPvC_flags (f v : Byte) (c : Bool) : FlagBits.of ((f &&& ~~~0x05) ||| bitIf c 0x01 ||| parityF v) =
    { FlagBits.of f with pv := evenOnes v, c := c } := by
  simp only [FlagBits.of, parityF, parity_eq, BitVec.getLsbD_or, BitVec.getLsbD_and, bitIf_getLsbD]
  simp

/-- The half borrow of the correction taken away. -/
theorem daa_halfBorrow (a f : Byte) : decide (a.toNat % 16 < (daaRowOf a f).1.toNat % 16) =
    (flagH f && decide (a.toNat % 16 < 6)) := by
  rw [daaRowOf_low_digit]
  cases flagH f with
  | true => simp
  | false =>
    simp only [Bool.false_eq_true, false_or, Bool.false_and, decide_eq_false_iff_not]
    split <;> omega

/-- The half carry of the correction added. -/
theorem daa_halfCarry (a f : Byte) : decide (16 ≤ a.toNat % 16 + (daaRowOf a f).1.toNat % 16) =
    decide (9 < a.toNat % 16) := by
  rw [daaRowOf_low_digit, decide_eq_decide]
  by_cases hl : 9 < a.toNat % 16
  · rw [if_pos (.inr hl)]
    omega
  · split <;> omega

/-- The flags of DAA: those of the sum or difference, with the parity in PV and C from the row. -/
theorem daa_flags (a f : Byte) : FlagBits.of (daa a f).2 =
    .result (daa a f).1 (if flagN f then flagH f && decide (a.toNat % 16 < 6) else decide (9 < a.toNat % 16))
      (evenOnes (daa a f).1) (flagN f) (daaRowOf a f).2 := by
  rw [daa, setPvC_flags, daaCorrection_eq, daaCarry_eq]
  cases flagN f with
  | true => simp [sub8_flags, FlagBits.result, daa_halfBorrow]
  | false => simp [add8_flags, FlagBits.result, daa_halfCarry]

/-- A and F take bytes. -/
theorem runs_of_setAF {i : Instr} {s : State} {a f : Byte} {n : Nat}
    (he : exec i s = .next (((s.setA a).setF f).cost n)) :
    Runs i s { cost := n, places := [.a, .f] } fun t => t.main.a = a ∧ t.flags = FlagBits.of f :=
  .charge he ((s.setA_within a).comp (State.setF_within _ f)) ⟨rfl, rfl⟩

/-- F alone takes a byte. -/
theorem runs_of_setF {i : Instr} {s : State} {f : Byte} {n : Nat} (he : exec i s = .next ((s.setF f).cost n)) :
    Runs i s { cost := n, places := [.f] } fun t => t.flags = FlagBits.of f :=
  .charge he (s.setF_within f) rfl

/-- Settles O43: the two tests of `daa` are the rows of the table (`daaRow_eq`). -/
theorem decimalAdjustTable : Obligations.DecimalAdjustTable := fun s =>
  (runs_of_setAF rfl).imp fun _ ⟨ha, hf⟩ =>
    ⟨ha.trans (daa_result s.main.a s.main.f), by rw [hf, ha]; exact daa_flags s.main.a s.main.f⟩

/-! ### CPL, NEG, CCF and SCF (rules R371 to R374) -/

theorem cplFlags_flags (f a : Byte) : FlagBits.of (cplFlags f a) =
    { FlagBits.of f with h := true, n := true, f5 := a.getLsbD 5, f3 := a.getLsbD 3 } := by
  simp [FlagBits.of, cplFlags]

theorem ccfFlags_flags (f a : Byte) : FlagBits.of (ccfFlags f a) =
    { FlagBits.of f with
      c := !flagC f, h := flagC f, n := false, f5 := a.getLsbD 5, f3 := a.getLsbD 3 } := by
  simp only [FlagBits.of, ccfFlags, BitVec.getLsbD_or, BitVec.getLsbD_and, bitIf_getLsbD]
  simp

theorem scfFlags_flags (f a : Byte) : FlagBits.of (scfFlags f a) =
    { FlagBits.of f with c := true, h := false, n := false, f5 := a.getLsbD 5, f3 := a.getLsbD 3 } := by
  simp [FlagBits.of, scfFlags]

/-- The difference from 0. -/
theorem neg_result_toNat (a : Byte) : (sub8 0 a false).1.toNat = (256 - a.toNat) % 256 := by
  rw [sub8_result, BitVec.toNat_sub]
  rfl

/-- Of the signed bytes only -128 has no negation. -/
theorem overflows8_neg (a : Byte) : overflows8 (-a.toInt) = decide (a = 0x80) := by
  have hlt := a.isLt
  have hiff : a = 0x80 ↔ a.toNat = 128 := BitVec.toNat_inj.symm
  rw [overflows8, toInt_byte, ← Bool.decide_or, decide_eq_decide, hiff]
  split <;> omega

/-- The flags of NEG: a borrow, or a half borrow, from 0 comes of all but 0. -/
theorem neg_flags (a : Byte) : FlagBits.of (sub8 0 a false).2 =
    .result (sub8 0 a false).1 (a.toNat % 16 ≠ 0) (a = 0x80) true (a ≠ 0) := by
  have hzero : 0 < a.toNat ↔ a ≠ 0 := Nat.pos_iff_ne_zero.trans (not_congr (BitVec.toNat_inj (y := 0)))
  rw [sub8_flags]
  simp [overflows8_neg, hzero, Nat.pos_iff_ne_zero]

/-- Settles O44: each gives A and F, or F alone. -/
theorem accumulatorAndCarryForms : Obligations.AccumulatorAndCarryForms := fun s =>
  ⟨(runs_of_setAF rfl).imp fun _ ⟨ha, hf⟩ =>
     ⟨ha.trans BitVec.xor_allOnes, by rw [hf, ha]; exact cplFlags_flags s.main.f _⟩,
   fun _ => (runs_of_setAF rfl).imp fun _ ⟨ha, hf⟩ =>
     ⟨ha ▸ neg_result_toNat s.main.a, by rw [hf, ha]; exact neg_flags s.main.a⟩,
   (runs_of_setF rfl).imp fun _ hf => hf.trans (ccfFlags_flags s.main.f s.main.a),
   (runs_of_setF rfl).imp fun _ hf => hf.trans (scfFlags_flags s.main.f s.main.a)⟩

/-! ### CPU control (rules R375 to R388) -/

theorem State.setHalted_within (s : State) (b : Bool) :
    Within { cost := 0, places := [.halted] } s { s with halted := b } := by
  refine ⟨rfl, fun p hp => ?_, .of_eq rfl _, ⟨rfl, rfl⟩, rfl⟩
  cases p with
  | halted => exact absurd (by decide) hp
  | _ => rfl

theorem State.setIffs_within (s : State) (b b' : Bool) :
    Within { cost := 0, places := [.iff1, .iff2] } s { s with iff1 := b, iff2 := b' } := by
  refine ⟨rfl, fun p hp => ?_, .of_eq rfl _, ⟨rfl, rfl⟩, rfl⟩
  cases p with
  | iff1 | iff2 => exact absurd (by decide) hp
  | _ => rfl

theorem State.setIm_within (s : State) (m : IntMode) :
    Within { cost := 0, places := [.im] } s { s with im := m } := by
  refine ⟨rfl, fun p hp => ?_, .of_eq rfl _, ⟨rfl, rfl⟩, rfl⟩
  cases p with
  | im => exact absurd (by decide) hp
  | _ => rfl

theorem State.setShadow_within (s : State) (l : Shadow) :
    Within { cost := 0, places := [.shadow] } s { s with shadow := l } := by
  refine ⟨rfl, fun p hp => ?_, .of_eq rfl _, ⟨rfl, rfl⟩, rfl⟩
  cases p with
  | shadow => exact absurd (by decide) hp
  | _ => rfl

theorem State.enableInterrupts_within (s : State) :
    Within { cost := 0, places := [.iff1, .iff2, .shadow] } s s.enableInterrupts :=
  (s.setIffs_within true true).comp (State.setShadow_within _ _)

/-- Settles O45: a cost alone, or one control item and a cost. -/
theorem controlForms : Obligations.ControlForms := fun s =>
  ⟨.intro _ rfl (s.cost_within 4) trivial,
   fun _ => .intro _ rfl (s.cost_within 8) trivial,
   .charge rfl (s.setHalted_within true) rfl,
   fun _ => .charge rfl (s.setHalted_within true) rfl,
   .charge rfl (s.setIffs_within false false) ⟨rfl, rfl⟩,
   .charge rfl s.enableInterrupts_within ⟨rfl, rfl, rfl⟩,
   fun _ => .charge rfl (s.setIm_within .im0) rfl,
   fun _ => .charge rfl (s.setIm_within .im1) rfl,
   fun _ => .charge rfl (s.setIm_within .im2) rfl,
   fun _ => .charge rfl (s.setShadow_within .all) rfl,
   fun _ => .charge rfl (s.setShadow_within .all) rfl⟩

/-! ### An ignored index byte (rule R388) -/

/-- An instruction that ignores an index byte before it completes, and means the same after that byte. -/
theorem exec_and_execBase_of_ignoresPrefix {base : Instr} (h : base.ignoresPrefix = true) (s : State) :
    ∃ t, exec base s = .next t ∧ execBase base s = .next t := by
  cases base with
  | nop | ldAMemBc | ldAMemDe | ldAMemNn | ldMemBcA | ldMemDeA | ldMemNnA | ldRR | ldRN | incR | decR | addAR | adcAR |
  subR | sbcAR | andR | xorR | orR | cpR | addAN | adcAN | subN | sbcAN | andN | xorN | orN | cpN | ldDdNn | incSs |
  decSs | pushQq | popQq | exDeHl | exAfAf | exx | daa | cpl | ccf | scf | di | ei | rlca | rrca | rla | rra | jpNn |
  jpCcNn | jrE | djnzE | jrCcE | callNn | callCcNn | ret | retCc | rstP | inAN | outNA =>
    exact ⟨_, rfl, rfl⟩
  | _ => exact absurd h Bool.false_ne_true

/-- Settles O46: after the index byte the next state is that of `execBase`, which is that of `exec`, but for 4 T-states. -/
theorem ignoredPrefixCostsFour : Obligations.IgnoredPrefixCostsFour := fun s _ _ h =>
  have ⟨t, he, hb⟩ := exec_and_execBase_of_ignoresPrefix h s
  ⟨t, he, congrArg (Result.addCost 4) hb⟩

/-! ### The halted cycle (rule R379) -/

theorem step_halted {s : State} (hh : s.halted = true) (hn : s.takesNmi = false) (hi : s.takesInt = false) :
    step s = .next (haltedCycle s) := by
  simp [step, hh, hn, hi]

/-- Settles O10: a halted cycle is a read, an advance of R and the latch cleared. -/
theorem haltedCycleOnlyRefreshes : Obligations.HaltedCycleOnlyRefreshes := fun s hh hn hi =>
  have hk := ((s.afterRead_within s.pc).comp (State.incR_within _ 1)).comp (State.setShadow_within _ .none)
  ⟨haltedCycle s, step_halted hh hn hi, hk.charge, State.incR_advances (s.afterRead s.pc) 1, rfl⟩

end Sys2Proof.Machine

/-! The 16-bit arithmetic group (45_alu16.md): a sum or difference of words, with HL or an index register taking the
result and F its flags. -/

namespace Sys2Proof.Machine

/-! ### F5 and F3 of a word: those of its high byte (10_state.md rules R71, R72) -/

theorem hi_getLsbD (w : Word) {k : Nat} (h : k < 8) : (hi w).getLsbD k = w.getLsbD (8 + k) := by
  rw [hi, BitVec.getLsbD_extractLsb', decide_eq_true h, Bool.true_and]

theorem hi_f5 (w : Word) : (hi w).getLsbD 5 = w.getLsbD 13 := hi_getLsbD w (by decide)

theorem hi_f3 (w : Word) : (hi w).getLsbD 3 = w.getLsbD 11 := hi_getLsbD w (by decide)

/-! ### A word and F taken together -/

section WordAndF

variable {i : Instr} {s : State} {v : Word} {f : Byte} {n : Nat}

theorem runs_of_setHlF (he : exec i s = .next (((s.setHl v).setF f).cost n)) :
    Runs i s { cost := n, places := [.h, .l, .f] } fun t => t.hl = v ∧ t.flags = FlagBits.of f :=
  .charge he ((s.setPair_within .hl v).comp (State.setF_within _ f)) ⟨s.pair_setPair .hl v, rfl⟩

theorem runs_of_setIdxF {x : Idx} (he : exec i s = .next (((s.setIdx x v).setF f).cost n)) :
    Runs i s { cost := n, places := [Idx.place x, .f] } fun t => t.idx x = v ∧ t.flags = FlagBits.of f :=
  .charge he ((s.setIdx_within x v).comp (State.setF_within _ f)) ⟨s.idx_setIdx_same x v, rfl⟩

end WordAndF

/-! ### Sums and differences of words (rules R71, R72) -/

section ExactWords

variable {a v r : Word} {flags : FlagBits}

/-- A sum that leaves S, Z and PV as `f` has them. -/
theorem add16_exact {f : Byte} (hr : r = (add16 f a v).1) (hf : flags = FlagBits.of (add16 f a v).2) :
    r = BitVec.ofNat 16 (a.toNat + v.toNat) ∧
      flags = { FlagBits.of f with
        f5 := r.getLsbD 13, f3 := r.getLsbD 11, n := false
        h := 4096 ≤ a.toNat % 4096 + v.toNat % 4096, c := 65536 ≤ a.toNat + v.toNat } :=
  ⟨hr, by rw [hf, add16_flags, ← hr, hi_f5, hi_f3]⟩

/-- A sum with carry that gives every flag. -/
theorem adc16_exact {c : Bool} (hr : r = (adc16 a v c).1) (hf : flags = FlagBits.of (adc16 a v c).2) :
    r = BitVec.ofNat 16 (a.toNat + v.toNat + c.toNat) ∧
      flags =
        { s := r.getLsbD 15, z := r == 0, f5 := r.getLsbD 13, f3 := r.getLsbD 11
          h := 4096 ≤ a.toNat % 4096 + v.toNat % 4096 + c.toNat
          pv := overflows16 (a.toInt + v.toInt + c.toNat), n := false
          c := 65536 ≤ a.toNat + v.toNat + c.toNat } :=
  ⟨hr, by rw [hf, adc16_flags, ← hr, hi_f5, hi_f3]⟩

/-- A difference with borrow that gives every flag. -/
theorem sbc16_exact {c : Bool} (hr : r = (sbc16 a v c).1) (hf : flags = FlagBits.of (sbc16 a v c).2) :
    r = BitVec.ofInt 16 ((a.toNat : Int) - v.toNat - c.toNat) ∧
      flags =
        { s := r.getLsbD 15, z := r == 0, f5 := r.getLsbD 13, f3 := r.getLsbD 11
          h := a.toNat % 4096 < v.toNat % 4096 + c.toNat
          pv := overflows16 (a.toInt - v.toInt - c.toNat), n := true
          c := a.toNat < v.toNat + c.toNat } :=
  ⟨hr, by rw [hf, sbc16_flags, ← hr, hi_f5, hi_f3]⟩

end ExactWords

/-- Settles O47: HL or an index register takes the sum of `add16`, and F its flags. -/
theorem addition16Forms : Obligations.Addition16Forms := fun _ =>
  ⟨fun _ => (runs_of_setHlF rfl).imp fun _ ⟨hr, hf⟩ => add16_exact hr hf,
   fun _ _ => (runs_of_setIdxF rfl).imp fun _ ⟨hr, hf⟩ => add16_exact hr hf⟩

/-- Settles O48: HL takes the sum of `adc16` or the difference of `sbc16`, and F its flags. -/
theorem carryArithmetic16Forms : Obligations.CarryArithmetic16Forms := fun _ _ =>
  ⟨(runs_of_setHlF rfl).imp fun _ ⟨hr, hf⟩ => adc16_exact hr hf,
   (runs_of_setHlF rfl).imp fun _ ⟨hr, hf⟩ => sbc16_exact hr hf⟩

end Sys2Proof.Machine

/-! The rotate and shift group (46_rotate_shift.md): a rotate or shift is a shift with one bit moved in and one moved
out, whatever the operand; a digit rotate puts digits together in A and in the byte at HL. -/

namespace Sys2Proof.Machine

/-! ### Bits and digits as numbers -/

/-- Two bytes whose bits do not meet: one a multiple of 2 ^ k, the other below it. -/
theorem toNat_or_of_dvd_of_lt {k : Nat} {h l : Byte} (hh : 2 ^ k ∣ h.toNat) (hl : l.toNat < 2 ^ k) :
    (h ||| l).toNat = h.toNat + l.toNat := by
  obtain ⟨q, hq⟩ := hh
  rw [BitVec.toNat_or, hq, Nat.two_pow_add_eq_or_of_lt hl]

theorem byte_shiftLeft_toNat (v : Byte) (k : Nat) : (v <<< k).toNat = v.toNat * 2 ^ k % 256 := by
  rw [BitVec.toNat_shiftLeft, Nat.shiftLeft_eq]

theorem byte_ushiftRight_toNat (v : Byte) (k : Nat) : (v >>> k).toNat = v.toNat / 2 ^ k := by
  rw [BitVec.toNat_ushiftRight, Nat.shiftRight_eq_div_pow]

theorem bitIf_bit0_toNat (b : Bool) : (bitIf b 0x01).toNat = b.toNat := by
  cases b <;> rfl

theorem bitIf_bit7_toNat (b : Bool) : (bitIf b 0x80).toNat = 128 * b.toNat := by
  cases b <;> rfl

theorem bit0_toNat (v : Byte) : (v.getLsbD 0).toNat = v.toNat % 2 :=
  (Nat.toNat_testBit v.toNat 0).trans (by rw [pow_zero, Nat.div_one])

theorem bit7_toNat (v : Byte) : (v.getLsbD 7).toNat = v.toNat / 128 :=
  (Nat.toNat_testBit v.toNat 7).trans (by omega)

/-! ### The eight rotates and shifts (rule R434) -/

/-- One bit to the left, with `b` moved in at bit 0. -/
theorem shiftLeft_or_bitIf (v : Byte) (b : Bool) :
    (v <<< 1) ||| bitIf b 0x01 = BitVec.ofNat 8 (2 * v.toNat + b.toNat) := by
  have hb := b.toNat_lt
  have hh := byte_shiftLeft_toNat v 1
  have hl := bitIf_bit0_toNat b
  refine BitVec.eq_of_toNat_eq ?_
  rw [toNat_or_of_dvd_of_lt (k := 1) (by omega) (by omega), BitVec.toNat_ofNat]
  omega

/-- One bit to the right, with `b` moved in at bit 7. -/
theorem ushiftRight_or_bitIf (v : Byte) (b : Bool) :
    (v >>> 1) ||| bitIf b 0x80 = BitVec.ofNat 8 (v.toNat / 2 + 128 * b.toNat) := by
  have hb := b.toNat_lt
  have hl := byte_ushiftRight_toNat v 1
  have hh := bitIf_bit7_toNat b
  refine BitVec.eq_of_toNat_eq ?_
  rw [BitVec.or_comm, toNat_or_of_dvd_of_lt (k := 7) (by omega) (by omega), BitVec.toNat_ofNat]
  omega

theorem and_bit7_eq_bitIf : ∀ v : Byte, v &&& 0x80 = bitIf (v.getLsbD 7) 0x80 := by
  decide

/-- The rotate or shift that `rot[y]` names (30_encoding.md rule R148). -/
def RotOp.ofCode (y : BitVec 3) : RotOp :=
  match y.toNat with
  | 0 => .rlc | 1 => .rrc | 2 => .rl | 3 => .rr | 4 => .sla | 5 => .sra | 6 => .sll | _ => .srl

/-- Each result is a shift with the bit moved in that the row of R434 names. -/
theorem rotResult_ofCode (y : BitVec 3) (c : Bool) (v : Byte) : rotResult (.ofCode y) c v = rotated y c v := by
  cases y using octal_cases with
  | zero => exact (shiftLeft_or_bitIf v _).trans (by rw [bit7_toNat]; rfl)
  | one => exact (ushiftRight_or_bitIf v _).trans (by rw [bit0_toNat]; rfl)
  | two => exact shiftLeft_or_bitIf v c
  | three => exact ushiftRight_or_bitIf v c
  | four => exact BitVec.or_zero.symm.trans (shiftLeft_or_bitIf v false)
  | five =>
    show v >>> 1 ||| (v &&& 0x80) = _
    rw [and_bit7_eq_bitIf, ushiftRight_or_bitIf, bit7_toNat]
    rfl
  | six => exact shiftLeft_or_bitIf v true
  | seven => exact BitVec.or_zero.symm.trans (ushiftRight_or_bitIf v false)

theorem rotCarry_ofCode (y : BitVec 3) (v : Byte) : rotCarry (.ofCode y) v = rotatedOut y v := by
  cases y using octal_cases <;> rfl

/-! ### The accumulator rotates (rules R430 to R433) -/

theorem exec_accRotate (y : BitVec 2) (s : State) :
    exec (accRotate y) s = .next ((s.rotateA (.ofCode (y.setWidth 3))).cost 4) := by
  cases y using quarter_cases <;> rfl

/-- The flags of an accumulator rotate: S, Z and PV of the old F. -/
theorem rotAFlags_flags (f a : Byte) (c : Bool) : FlagBits.of (rotAFlags f a c) =
    { FlagBits.of f with h := false, n := false, c := c, f5 := a.getLsbD 5, f3 := a.getLsbD 3 } := by
  simp only [FlagBits.of, rotAFlags, BitVec.getLsbD_or, BitVec.getLsbD_and, bitIf_getLsbD]
  simp

/-- Settles O49: A takes the result of the rotate, and F the flags of `rotAFlags`. -/
theorem accumulatorRotates : Obligations.AccumulatorRotates := by
  intro s y a
  have ha : rotResult (.ofCode (y.setWidth 3)) (flagC s.main.f) s.main.a = a := rotResult_ofCode _ _ _
  refine (runs_of_setAF (exec_accRotate y s)).imp fun t ⟨hres, hf⟩ => ⟨hres.trans ha, ?_⟩
  rw [hf, ha, rotCarry_ofCode, rotAFlags_flags]
  rfl

/-! ### The rotates and shifts of an operand (rules R435 to R466) -/

theorem Target.exec_rotate {y : BitVec 3} {i : Instr} {o : Target} (h : o.rotate y = some i) (s : State) :
    exec i s = .next (((o.afterWrite s (rot (.ofCode y) s.main.f (o.old s)).1).setF
      (rot (.ofCode y) s.main.f (o.old s)).2).cost o.cbCost) := by
  cases o with
  | reg | memHl | memIdx => cases h; cases y using octal_cases <;> rfl
  | copy x d r => cases h; cases y using octal_cases <;> cases r <;> rfl
  | half => cases h

/-- Settles O50: an operand read and written back, and F that of `rot`. -/
theorem rotateAndShiftForms : Obligations.RotateAndShiftForms := by
  intro s y o i hw hi v
  have hv : (rot (.ofCode y) s.main.f (o.old s)).1 = v := rotResult_ofCode _ _ _
  have hruns := o.runs_of_afterWrite hw (o.exec_rotate hi s)
  rwa [rot_flags, hv, rotCarry_ofCode] at hruns

/-! ### The digit rotates (rules R467, R468) -/

/-- The high digit in its place. -/
theorem high_digit_toNat (a : Byte) : (a &&& 0xF0).toNat = a.toNat / 16 * 16 := by
  have e : (a >>> 4) <<< 4 = a &&& 0xF0 := BitVec.shiftLeft_ushiftRight
  rw [← e, byte_shiftLeft_toNat, byte_ushiftRight_toNat]
  omega

/-- The low digit moved up. -/
theorem low_digit_up_toNat (v : Byte) : (v <<< 4).toNat = v.toNat % 16 * 16 := by
  rw [byte_shiftLeft_toNat]
  omega

/-- A high and a low digit put together. -/
theorem digits_toNat {h l : Byte} {m n : Nat} (hh : h.toNat = m * 16) (hl : l.toNat = n) (hn : n < 16) :
    (h ||| l).toNat = m * 16 + n := by
  rw [toNat_or_of_dvd_of_lt (k := 4) ⟨m, hh.trans (Nat.mul_comm m 16)⟩ (hl ▸ hn), hh, hl]

/-- The byte at HL is read and takes v, A takes a, and F is from a with C kept. -/
theorem runs_of_digitRotate {i : Instr} {s : State} {v a : Byte} {n m k : Nat} (hw : Memory.wf s.bus.ram = true)
    (he : exec i s = .next (((((s.afterRead s.hl).memWrite s.hl v).setA a).setF (sz53pKeepC s.main.f a)).cost n))
    (hv : v.toNat = m) (ha : a.toNat = k) :
    Runs i s
      { cost := n, places := [.a, .f], stores := [s.hl]
        calls := [.writeByte s.hl (BitVec.ofNat 8 m), s.readCall s.hl] }
      fun t => Holds s t s.hl (BitVec.ofNat 8 m) ∧ t.main.a.toNat = k ∧
        t.flags = .result t.main.a false (evenOnes t.main.a) false s.flags.c := by
  rw [← hv, BitVec.ofNat_toNat, BitVec.setWidth_eq]
  obtain ⟨hk, hheld⟩ := State.readThenWrite_within hw s.hl v
  exact .charge he (hk.comp ((State.setA_within _ a).comp (State.setF_within _ _)))
    ⟨hheld, ha, sz53pKeepC_flags s.main.f a⟩

/-- Settles O51: the byte at HL and A are each a high and a low digit put together. -/
theorem digitRotates : Obligations.DigitRotates := by
  intro s hw a v rld rrd
  have haLow : a % 16 < 16 := Nat.mod_lt a (by decide)
  have hvLow : v % 16 < 16 := Nat.mod_lt v (by decide)
  have hvHigh : v / 16 < 16 := Nat.div_lt_of_lt_mul (s.memByte s.hl).isLt
  have hdown : (s.memByte s.hl >>> 4).toNat = v / 16 := byte_ushiftRight_toNat _ 4
  exact
    ⟨runs_of_digitRotate hw rfl (digits_toNat (low_digit_up_toNat _) (low_digit_toNat _) haLow)
       (digits_toNat (high_digit_toNat _) hdown hvHigh),
     runs_of_digitRotate hw rfl (digits_toNat (low_digit_up_toNat _) hdown hvHigh)
       (digits_toNat (high_digit_toNat _) (low_digit_toNat _) hvLow)⟩

end Sys2Proof.Machine

/-! The bit group (47_bit.md): BIT reads its operand and sets F; RES and SET read their operand and write it back
with one bit changed, and F is not touched. -/

namespace Sys2Proof.Machine

/-! ### BIT (rules R479 to R482) -/

/-- Bit 7 is the tested bit where it is asked for. -/
theorem sign_of_tested_bit (b : BitVec 3) (v : Byte) : (b == 7 && v.getLsbD b.toNat) = (b == 7 && v.getLsbD 7) := by
  by_cases hb : b = 7
  · rw [hb]; rfl
  · rw [beq_eq_false_iff_ne.mpr hb, Bool.false_and, Bool.false_and]

/-- The flags of BIT, with S said of bit 7 (rule R479). -/
theorem bitFlags_flags_sign (f : Byte) (b : BitVec 3) (v xy : Byte) : FlagBits.of (bitFlags f b v xy) =
    { s := b == 7 && v.getLsbD 7, z := !v.getLsbD b.toNat, f5 := xy.getLsbD 5, h := true
      f3 := xy.getLsbD 3, pv := !v.getLsbD b.toNat, n := false, c := f.getLsbD 0 } := by
  rw [bitFlags_flags, sign_of_tested_bit]

/-- A byte of memory is read, and F alone takes a byte. -/
theorem runs_of_readThenSetF {i : Instr} {s : State} {a : Word} {f : Byte} {n : Nat}
    (he : exec i s = .next (((s.afterRead a).setF f).cost n)) :
    Runs i s { cost := n, places := [.f], calls := [s.readCall a] } fun t => t.flags = FlagBits.of f :=
  .charge he ((s.afterRead_within a).comp (State.setF_within _ f)) rfl

/-- Settles O52: F is that of `bitFlags`, of the operand and the byte that gives F5 and F3. -/
theorem bitTestForms : Obligations.BitTestForms := fun s b =>
  have flags (v xy : Byte) := bitFlags_flags_sign s.main.f b v xy
  ⟨fun _ => (runs_of_setF rfl).imp fun _ hf => hf.trans (flags _ _),
   (runs_of_readThenSetF rfl).imp fun _ hf => hf.trans (flags _ _),
   fun _ _ _ => (runs_of_readThenSetF rfl).imp fun _ hf => hf.trans (flags _ _)⟩

/-! ### RES and SET (rules R483 to R490) -/

/-- The mask is the power of two with bit b alone. -/
theorem bitMask_getLsbD (b : BitVec 3) (k : Nat) : (bitMask b).getLsbD k = decide (k = b.toNat) := by
  have hb : b.toNat < 8 := b.isLt
  have hpow : bitMask b = BitVec.twoPow 8 b.toNat := rfl
  rw [hpow, BitVec.getLsbD_twoPow, decide_eq_true hb, Bool.true_and]
  exact decide_eq_decide.mpr eq_comm

theorem resBit_getLsbD (b : BitVec 3) (v : Byte) (k : Nat) :
    (resBit b v).getLsbD k = if k = b.toNat then false else v.getLsbD k := by
  rw [resBit, BitVec.getLsbD_and, BitVec.getLsbD_not, bitMask_getLsbD]
  by_cases hk : k = b.toNat
  · simp [hk]
  · simpa [hk] using fun h => BitVec.lt_of_getLsbD h

theorem setBit_getLsbD (b : BitVec 3) (v : Byte) (k : Nat) :
    (setBit b v).getLsbD k = if k = b.toNat then true else v.getLsbD k := by
  rw [setBit, BitVec.getLsbD_or, bitMask_getLsbD]
  by_cases hk : k = b.toNat <;> simp [hk]

/-- An instruction that reads its operand and writes it back: F is that of the state before. -/
theorem Target.runs_of_afterWrite_keepF {i : Instr} {s : State} {o : Target} {v : Byte} {n : Nat}
    (hw : Memory.wf s.bus.ram = true) (he : exec i s = .next ((o.afterWrite s v).cost n)) :
    Runs i s { cost := n, places := o.places, stores := o.stores s, calls := o.calls s v } fun t => o.holds s t v :=
  have ⟨hk, hheld⟩ := o.afterWrite_within hw v
  .charge he hk (Target.holds_setF_cost hheld (o.afterWrite s v).main.f n)

theorem Target.exec_res {b : BitVec 3} {i : Instr} {o : Target} (h : o.res b = some i) (s : State) :
    exec i s = .next ((o.afterWrite s (resBit b (o.old s))).cost o.cbCost) := by
  cases o <;> cases h <;> rfl

theorem Target.exec_set {b : BitVec 3} {i : Instr} {o : Target} (h : o.set b = some i) (s : State) :
    exec i s = .next ((o.afterWrite s (setBit b (o.old s))).cost o.cbCost) := by
  cases o <;> cases h <;> rfl

/-- Settles O53: the operand takes the byte of `setBit` or `resBit`. -/
theorem bitResetAndSetForms : Obligations.BitResetAndSetForms := fun s b o _ on hw hi =>
  match on with
  | true => ⟨setBit b (o.old s), fun k _ => setBit_getLsbD b (o.old s) k,
      o.runs_of_afterWrite_keepF hw (o.exec_set hi s)⟩
  | false => ⟨resBit b (o.old s), fun k _ => resBit_getLsbD b (o.old s) k,
      o.runs_of_afterWrite_keepF hw (o.exec_res hi s)⟩

end Sys2Proof.Machine

/-! Jumps, calls and returns (48_jump_call.md): a jump sets PC, a call pushes it first, a return pops it; a condition
chooses between two targets, or between an operation and none. -/

namespace Sys2Proof.Machine

/-! ### Conditions and targets (rules R510, R513, R514, R524) -/

/-- A condition of JR on F is that condition on its flags. -/
theorem jrCond_eq_met (s : State) (cc : JrCond) : s.cond (JrCond.cond cc) = JrCond.met s.flags cc := by
  cases cc <;> rfl

/-- A relative target is the signed sum, narrowed. -/
theorem add_sext16 (w : Word) (e : Byte) : w + sext16 e = BitVec.ofInt 16 (w.toNat + e.toInt) := by
  rw [BitVec.ofInt_add, BitVec.ofInt_natCast, BitVec.ofNat_toNat, BitVec.setWidth_eq]
  rfl

/-- RST's target is eight times its operand. -/
theorem rst_target_toNat : ∀ p : BitVec 3, (p.setWidth 16 <<< 3 : Word).toNat = 8 * p.toNat := by decide

/-- A jump not taken leaves PC at the next instruction. -/
theorem State.ite_setPc (b : Bool) (a : Word) (s : State) :
    (if b then s.setPc a else s) = s.setPc (if b then a else s.pc) := by
  cases b <;> rfl

theorem exec_jpCcNn (cc : Cond) (nn : Word) (s : State) : exec (.jpCcNn cc nn) s =
    .next ((s.setPc (if Cond.met s.flags cc then nn else s.pc)).cost 10) := by
  rw [← State.ite_setPc, ← cond_eq_met]
  rfl

theorem exec_jrE (e : Byte) (s : State) : exec (.jrE e) s =
    .next ((s.setPc (BitVec.ofInt 16 (s.pc.toNat + e.toInt))).cost 12) := by
  rw [← add_sext16]
  rfl

theorem exec_jrCcE (cc : JrCond) (e : Byte) (s : State) : exec (.jrCcE cc e) s =
    .next ((s.setPc (if JrCond.met s.flags cc then BitVec.ofInt 16 (s.pc.toNat + e.toInt) else s.pc)).cost
      (if JrCond.met s.flags cc then 12 else 7)) := by
  have h : exec (.jrCcE cc e) s =
      .next (if s.cond (JrCond.cond cc) then (s.jumpRelative e).cost 12 else s.cost 7) := rfl
  rw [h, jrCond_eq_met, ← add_sext16]
  cases JrCond.met s.flags cc <;> rfl

/-- B after its decrement is 0 exactly where it was 1. -/
theorem byte_pred_ne_zero_iff (b : Byte) : b - 1 ≠ 0 ↔ b ≠ 1 := not_congr BitVec.sub_eq_iff_eq_add

theorem exec_djnzE (e : Byte) (s : State) : exec (.djnzE e) s =
    .next (((s.setReg .b (s.main.b - 1)).setPc
      (if s.main.b = 1 then s.pc else BitVec.ofInt 16 (s.pc.toNat + e.toInt))).cost
        (if s.main.b = 1 then 8 else 13)) := by
  have h : exec (.djnzE e) s = .next (if s.main.b - 1 != 0 then
      ((s.setReg .b (s.main.b - 1)).jumpRelative e).cost 13 else (s.setReg .b (s.main.b - 1)).cost 8) := rfl
  rw [h, ← add_sext16]
  by_cases hb : s.main.b = 1
  · rw [if_neg (by simp [hb]), if_pos hb, if_pos hb]
    rfl
  · rw [if_pos (bne_iff_ne.2 ((byte_pred_ne_zero_iff _).2 hb)), if_neg hb, if_neg hb]
    rfl

/-! ### The kinds of jump, call and return -/

section JumpKinds

variable {i : Instr} {s : State} {n : Nat} {a : Word}

/-- A jump: PC takes the target, and nothing else is changed. -/
theorem runs_of_setPc (he : exec i s = .next ((s.setPc a).cost n)) :
    Runs i s { cost := n, places := [.pc] } fun t => t.pc = a :=
  .charge he (s.setPc_within a) rfl

/-- A call: the address of the next instruction is pushed, and then PC takes the target. -/
theorem runs_of_call (hw : Memory.wf s.bus.ram = true) (he : exec i s = .next ((s.call a).cost n)) :
    Runs i s { cost := n, places := [.sp, .pc], stores := s.pushStores, calls := s.pushCalls s.pc }
      fun t => Pushed s t s.pc ∧ t.pc = a :=
  have ⟨hk, hpushed⟩ := State.push16_within hw s.pc
  .charge he (hk.comp (State.setPc_within _ a)) ⟨hpushed, rfl⟩

/-- A return: PC takes the word that two reads at SP answer. -/
theorem runs_of_popPc (he : exec i s = .next (s.popPc.cost n)) :
    Runs i s { cost := n, places := [.sp, .pc], calls := s.wordCalls s.sp }
      fun t => t.sp = s.sp + 2 ∧ t.pc = s.wordAnswer s.sp :=
  .charge he (s.afterPop_within.comp (State.setPc_within _ _)) ⟨rfl, rfl⟩

/-- A return that copies IFF2 to IFF1 too. -/
theorem runs_of_returnFromInterrupt (he : exec i s = .next (s.returnFromInterrupt.cost n)) :
    Runs i s { cost := n, places := [.sp, .pc, .iff1], calls := s.wordCalls s.sp }
      fun t => (t.sp = s.sp + 2 ∧ t.pc = s.wordAnswer s.sp) ∧ t.iff1 = s.iff2 :=
  .charge he s.returnFromInterrupt_within ⟨⟨rfl, rfl⟩, rfl⟩

/-- An instruction whose condition fails costs its T-states and does nothing else. -/
theorem runs_of_cost (he : exec i s = .next (s.cost n)) : Runs i s { cost := n } fun _ => True :=
  .intro _ he (s.cost_within n) trivial

end JumpKinds

/-- A conditional instruction does what its condition says. -/
theorem ite_cond_of_met {s x y : State} {cc : Cond} {b : Bool} (h : Cond.met s.flags cc = b) :
    (if s.cond cc then x else y) = if b then x else y := by
  rw [cond_eq_met, h]

/-- Settles O54: each is a jump, to a target that may be the next instruction; DJNZ sets B before it. -/
theorem jumpForms : Obligations.JumpForms := fun s nn e =>
  ⟨runs_of_setPc rfl,
   fun cc => runs_of_setPc (exec_jpCcNn cc nn s),
   runs_of_setPc (exec_jrE e s),
   fun cc => runs_of_setPc (exec_jrCcE cc e s),
   .charge (exec_djnzE e s) ((s.setReg_within .b _).comp (State.setPc_within _ _))
     ⟨BitVec.toNat_sub' s.main.b 1, rfl⟩,
   runs_of_setPc rfl,
   fun _ => runs_of_setPc rfl⟩

/-- Settles O55: each is a call, or a cost alone where the condition fails. -/
theorem callForms : Obligations.CallForms := fun _ hw =>
  ⟨fun _ => runs_of_call hw rfl,
   fun _ _ h => runs_of_call hw (congrArg Host.Outcome.next (ite_cond_of_met h)),
   fun _ _ h => runs_of_cost (congrArg Host.Outcome.next (ite_cond_of_met h)),
   fun p => (runs_of_call hw rfl).imp fun _ ⟨hpushed, hpc⟩ => ⟨hpushed, hpc ▸ rst_target_toNat p⟩⟩

/-- Settles O56: each is a return, or a cost alone where the condition fails. -/
theorem returnForms : Obligations.ReturnForms := fun _ =>
  ⟨runs_of_popPc rfl,
   fun _ h => runs_of_popPc (congrArg Host.Outcome.next (ite_cond_of_met h)),
   fun _ h => runs_of_cost (congrArg Host.Outcome.next (ite_cond_of_met h)),
   runs_of_returnFromInterrupt rfl,
   fun _ => runs_of_returnFromInterrupt rfl⟩

end Sys2Proof.Machine

/-! Input and output (49_io.md): one port call and what takes the byte; and one iteration of a block input or output,
what it changes, costs and calls. -/

namespace Sys2Proof.Machine

/-! ### IN and OUT (rules R550 to R555) -/

section PortKinds

variable {i : Instr} {s : State} {n : Nat} {p : Word} {v : Byte}

/-- An input to a register, A among them, that leaves the flags. -/
theorem runs_of_portRead {r : Reg8}
    (he : exec i s = .next (((s.afterPortRead p).setReg r (s.portByte p)).cost n)) :
    Runs i s { cost := n, places := [Reg8.place r], calls := [.readPort p (s.portByte p)] }
      fun t => t.reg r = s.portByte p :=
  .charge he ((s.afterPortRead_within p).comp (State.setReg_within _ r _)) (State.reg_setReg_same _ r _)

/-- An output. -/
theorem runs_of_portWrite (he : exec i s = .next ((s.portWrite p v).cost n)) :
    Runs i s { cost := n, calls := [.writePort p v] } fun _ => True :=
  .charge he (s.portWrite_within p v) trivial

end PortKinds

/-- Settles O57: the forms that write flags are a port read, their register if they have one, and F. -/
theorem inputAndOutputForms : Obligations.InputAndOutputForms := fun s =>
  have flags := sz53pKeepC_flags s.main.f (s.portByte s.bc)
  have read := s.afterPortRead_within s.bc
  ⟨fun _ => runs_of_portRead (r := .a) rfl,
   fun r => .charge rfl ((read.comp (State.setReg_within _ r _)).comp (State.setF_within _ _))
     ⟨(State.reg_setF _ _ r).trans (State.reg_setReg_same _ r _), flags⟩,
   .charge rfl (read.comp (State.setF_within _ _)) flags,
   fun _ => runs_of_portWrite rfl,
   fun _ => runs_of_portWrite rfl,
   runs_of_portWrite rfl⟩

/-! ### Block input and output (rules R556 to R564) -/

/-- The flags of rule R556: S, Z, F5 and F3 of B, N bit 7 of the byte, H and C the carry of the sum. -/
theorem ioFlags_flags (b v : Byte) (k : Nat) : FlagBits.of (ioFlags b v k) =
    .result b (255 < k) (evenOnes ((BitVec.ofNat 8 k &&& 7) ^^^ b)) (v.getLsbD 7) (255 < k) := by
  simp only [FlagBits.of, FlagBits.result, ioFlags, parityF, parity_eq, BitVec.getLsbD_or, bitIf_getLsbD, sz53_getLsbD]
  simp

/-- The low byte of a sum is the sum of the low bytes. -/
theorem lo_add (a b : Word) : lo (a + b) = lo a + lo b := by
  refine BitVec.eq_of_toNat_eq ?_
  rw [lo_toNat, BitVec.toNat_add, BitVec.toNat_add, lo_toNat, lo_toNat]
  omega

/-- A byte one up, or one down, as an arithmetic of numbers. -/
theorem add_lo_blockStep_toNat (b : Byte) (down : Bool) :
    (b + lo (blockStep down)).toNat = (b.toNat + if down then 255 else 1) % 256 := by
  cases down <;> exact BitVec.toNat_add b _

/-- The new L. -/
theorem State.lo_hl_blockStep_toNat (s : State) (down : Bool) :
    (lo (s.hl + blockStep down)).toNat = (s.main.l.toNat + if down then 255 else 1) % 256 := by
  rw [lo_add, State.lo_hl, add_lo_blockStep_toNat]

/-- A byte comes from the port that B and C name and goes to HL; B and HL move on, and F tells of it. -/
theorem State.blockIn_within {s : State} (hw : Memory.wf s.bus.ram = true) (d : Word) :
    Within { cost := 0, places := [.b, .h, .l, .f], stores := [s.hl]
             calls := [.writeByte s.hl (s.portByte s.bc), .readPort s.bc (s.portByte s.bc)] } s (s.blockIn d) ∧
      Holds s (s.blockIn d) s.hl (s.portByte s.bc) := by
  have hw' : Memory.wf (s.afterPortRead s.bc).bus.ram = true := hw
  obtain ⟨hstore, held⟩ := State.memWrite_within hw' s.hl (s.portByte s.bc)
  have hregs : Within { cost := 0, places := [.b, .h, .l, .f] } _ (s.blockIn d) :=
    ((State.setReg_within _ .b _).comp (State.setPair_within _ .hl _)).comp (State.setF_within _ _)
  exact ⟨((s.afterPortRead_within s.bc).comp hstore).comp hregs, held⟩

/-- The byte at HL goes to the port that the new B and C name; B and HL move on, and F tells of it. -/
theorem State.blockOut_within (s : State) (d : Word) :
    Within { cost := 0, places := [.b, .h, .l, .f]
             calls := [.writePort (w16 (s.main.b - 1) s.main.c) (s.memByte s.hl), s.readCall s.hl] } s
      (s.blockOut d) := by
  have hport := State.portWrite_within ((s.afterRead s.hl).setReg .b (s.main.b - 1)) (w16 (s.main.b - 1) s.main.c)
    (s.memByte s.hl)
  have hregs : Within { cost := 0, places := [.h, .l, .f] } _ (s.blockOut d) :=
    (State.setPair_within _ .hl _).comp (State.setF_within _ _)
  exact (((s.afterRead_within s.hl).comp (State.setReg_within _ .b _)).comp hport).comp hregs

theorem State.blockIn_hl (s : State) (d : Word) : (s.blockIn d).hl = s.hl + d := w16_hi_lo (s.hl + d)
theorem State.blockOut_hl (s : State) (d : Word) : (s.blockOut d).hl = s.hl + d := w16_hi_lo (s.hl + d)

theorem State.blockIn_flags (s : State) (d : Word) : (s.blockIn d).flags = FlagBits.of
    (ioFlags (s.main.b - 1) (s.portByte s.bc) ((s.portByte s.bc).toNat + (s.main.c + lo d).toNat)) := rfl

theorem State.blockOut_flags (s : State) (d : Word) : (s.blockOut d).flags = FlagBits.of
    (ioFlags (s.main.b - 1) (s.memByte s.hl) ((s.memByte s.hl).toNat + (lo (s.hl + d)).toNat)) := rfl

theorem exec_blockInput (down rep : Bool) (s : State) : exec (blockInput down rep) s =
    .next ((s.blockIn (blockStep down)).repeatIf (rep && s.main.b - 1 != 0)) := by
  cases down <;> cases rep <;> rfl

theorem exec_blockOutput (down rep : Bool) (s : State) : exec (blockOutput down rep) s =
    .next ((s.blockOut (blockStep down)).repeatIf (rep && s.main.b - 1 != 0)) := by
  cases down <;> cases rep <;> rfl

/-- Settles O58: an iteration of INI, IND, OUTI or OUTD and its end; the forms of each differ in `blockStep` and in
whether they may repeat. -/
theorem blockInputAndOutputForms : Obligations.BlockInputAndOutputForms := by
  intro s down rep hw b again places after
  constructor
  · obtain ⟨hk, hheld⟩ := State.blockIn_within hw (blockStep down)
    refine runs_of_iteration (exec_blockInput down rep s) hk
      ⟨hheld, rfl, (s.blockIn_hl _).trans (add_blockStep down s.hl), rfl, (s.blockIn_flags _).trans ?_⟩
    rw [ioFlags_flags, add_lo_blockStep_toNat]
  · refine runs_of_iteration (exec_blockOutput down rep s) (s.blockOut_within _)
      ⟨rfl, (s.blockOut_hl _).trans (add_blockStep down s.hl), rfl, (s.blockOut_flags _).trans ?_⟩
    rw [ioFlags_flags, State.lo_hl_blockStep_toNat]

end Sys2Proof.Machine

/-! The instruction of a step (60_exceptions.md rules R601, R603): a fetch and a decode of the same bytes come to the
same instruction, and a step is refused for its acknowledge byte only. -/

namespace Sys2Proof

/-! ### Which decodes leave their last byte unread (30_encoding.md rule R158) -/

/-- A decode leaves its last byte unread exactly where it comes to a standalone index byte. -/
def Dec.UnreadIffStandalone : Dec → Prop
  | .done i => i.isStandalone = false
  | .unread i => i.isStandalone = true
  | .more _ k => ∀ b, (k b).UnreadIffStandalone

/-- The opcode tables hold no standalone index byte. -/
theorem Dec.Spells.unreadIffStandalone : ∀ {n : Nat} {pre : List Byte} {d : Dec}, d.Spells n pre →
    d.UnreadIffStandalone
  | 0, _, .done _, h => (Dec.spells_done.1 h).notStandalone
  | _ + 1, _, .more _ _, h => fun b => (h b).unreadIffStandalone

theorem decIdx_unreadIffStandalone (x : Idx) (op : Byte) : (decIdx x op).UnreadIffStandalone := by
  cases h : isPrefixByte op with
  | false => exact (decOpcode_spells (some x) h).unreadIffStandalone
  | true =>
    obtain rfl | rfl | ⟨x', rfl⟩ := isPrefixByte_cases h
    · exact fun d op' => (Dec.spells_done.2 (decIdxCb_spelledBy x d op')).unreadIffStandalone
    · rfl
    · cases x' <;> rfl

theorem decStart_next_unreadIffStandalone (op : Byte) : (decStart.next op).UnreadIffStandalone := by
  cases h : isPrefixByte op with
  | false => exact (decOpcode_spells none h).unreadIffStandalone
  | true =>
    obtain rfl | rfl | ⟨x, rfl⟩ := isPrefixByte_cases h
    · exact fun op' => (Dec.spells_done.2 (decCb_spelledBy op')).unreadIffStandalone
    · exact fun op' => (decEd_spells op').unreadIffStandalone
    · cases x <;> exact decIdx_unreadIffStandalone _

end Sys2Proof

namespace Sys2Proof.Machine

/-! ### Reads in a row -/

/-- The state after a fetch has read n bytes of which it leaves k. -/
def State.afterFetching (n k : Nat) (s : State) : State :=
  { s.afterReads n s.pc with pc := s.pc + BitVec.ofNat 16 n - BitVec.ofNat 16 k, decode := .base }

/-- The state in which a fetch goes on after one byte. -/
def State.pastByte (st : DecodeState) (s : State) : State :=
  { s.afterRead s.pc with decode := st, pc := s.pc + 1 }

/-- The answers to reads do not depend on PC and the decode state. -/
theorem State.answers_at (n : Nat) (a p : Word) (st : DecodeState) (s : State) :
    ({ s with decode := st, pc := p } : State).answers n a = s.answers n a := by
  induction n generalizing a s with
  | zero => rfl
  | succ n ih => exact congrArg (s.memByte a :: ·) (ih (a + 1) (s.afterRead a))

/-- Reads leave PC and the decode state as they are. -/
theorem State.afterReads_at (n : Nat) (a p : Word) (st : DecodeState) (s : State) :
    ({ s with decode := st, pc := p } : State).afterReads n a = { s.afterReads n a with decode := st, pc := p } := by
  induction n generalizing a s with
  | zero => rfl
  | succ n ih => exact ih (a + 1) (s.afterRead a)

theorem State.answers_length (n : Nat) (a : Word) (s : State) : (s.answers n a).length = n := by
  induction n generalizing a s with
  | zero => rfl
  | succ n ih => exact congrArg (· + 1) (ih (a + 1) (s.afterRead a))

theorem State.answers_succ (n : Nat) (st : DecodeState) (s : State) :
    s.answers (n + 1) s.pc = s.memByte s.pc :: (s.pastByte st).answers n (s.pastByte st).pc :=
  congrArg (s.memByte s.pc :: ·) (State.answers_at n (s.pc + 1) (s.pc + 1) st (s.afterRead s.pc)).symm

theorem State.afterFetching_pastByte (n k : Nat) (st : DecodeState) (s : State) :
    (s.pastByte st).afterFetching n k = s.afterFetching (n + 1) k := by
  have hpc : s.pc + 1 + BitVec.ofNat 16 n = s.pc + BitVec.ofNat 16 (n + 1) := by
    rw [BitVec.add_assoc, Nat.add_comm, BitVec.ofNat_add]
    rfl
  rw [State.afterFetching, State.pastByte, State.afterReads_at, hpc]
  rfl

/-! ### A fetch is a decode of the answers -/

/-- A fetch comes to the instruction that the answers decode to. It reads the bytes that the decode takes, and one more
for a standalone index byte, which it leaves. -/
theorem fetchWith_of_onList {d : Dec} {n : Nat} {s : State} {before rest : List Byte} {i : Instr}
    (hd : d.UnreadIffStandalone) (hb : before.length = n + 1) (h : d.onList before (s.answers n s.pc) = .ok (i, rest)) :
    ∃ m, m + rest.length = n + i.isStandalone.toNat ∧
      fetchWith d s = (i, s.afterFetching m i.isStandalone.toNat) := by
  induction d generalizing n s before with
  | done j =>
    obtain ⟨rfl, rfl⟩ := Prod.mk.inj (Except.ok.inj h)
    have hj : j.isStandalone = false := hd
    have hpc : s.pc + BitVec.ofNat 16 0 - BitVec.ofNat 16 0 = s.pc := (BitVec.sub_zero _).trans (BitVec.add_zero _)
    refine ⟨0, by rw [hj, State.answers_length]; exact Nat.zero_add n, ?_⟩
    rw [hj, State.afterFetching, Bool.toNat_false, hpc]
    rfl
  | unread j =>
    obtain ⟨rfl, rfl⟩ := Prod.mk.inj (Except.ok.inj h)
    have hj : j.isStandalone = true := hd
    have hpc : s.pc + BitVec.ofNat 16 0 = s.pc := BitVec.add_zero _
    refine ⟨0, by rw [hj, hb]; exact Nat.zero_add _, ?_⟩
    rw [hj, State.afterFetching, hpc]
    rfl
  | more st k ih =>
    cases n with
    | zero => exact nomatch h
    | succ n =>
      rw [State.answers_succ n st] at h
      obtain ⟨m, hm, hf⟩ := ih (s.memByte s.pc) (s := s.pastByte st) (hd _)
        (congrArg (· + 1) (State.answers_length n _ _)) h
      rw [State.afterFetching_pastByte] at hf
      exact ⟨m + 1, by omega, hf⟩

/-- A standalone index byte is one byte long, and the one after it is read to tell. -/
theorem fetchReads_eq (i : Instr) : fetchReads i = i.length + i.isStandalone.toNat := by
  cases i <;> rfl

/-- A fetch runs the decode of the four bytes from PC on, whose instruction is well formed. -/
theorem fetchWith_decStart {s : State} {i : Instr} {rest : List Byte} (h : decode (s.answers 4 s.pc) = .ok (i, rest)) :
    i.wf = true ∧ fetchWith decStart s = (i, s.afterFetching (fetchReads i) i.isStandalone.toNat) := by
  obtain ⟨i', rest', hd, hw, -, he⟩ := everyByteSequenceDecodes _ _ _ _ []
  obtain ⟨rfl, rfl⟩ := Prod.mk.inj (Except.ok.inj (h.symm.trans hd))
  have hlen : i.length + rest.length = 4 := by rw [Instr.length, ← List.length_append, he]; rfl
  refine ⟨hw, ?_⟩
  rw [State.answers_succ 3 .base] at h
  obtain ⟨m, hm, hf⟩ := fetchWith_of_onList (n := 3) (decStart_next_unreadIffStandalone (s.memByte s.pc))
    (before := s.answers 4 s.pc) rfl h
  rw [State.afterFetching_pastByte] at hf
  have hreads : m + 1 = fetchReads i := by rw [fetchReads_eq]; omega
  exact hreads ▸ hf

theorem State.afterFetching_instr (i : Instr) (s : State) : s.afterFetching (fetchReads i) i.isStandalone.toNat =
    { s.afterReads (fetchReads i) s.pc with pc := s.pc + BitVec.ofNat 16 i.length, decode := .base } := by
  have hpc : s.pc + BitVec.ofNat 16 (fetchReads i) - BitVec.ofNat 16 i.isStandalone.toNat =
      s.pc + BitVec.ofNat 16 i.length := by
    rw [fetchReads_eq, BitVec.ofNat_add, ← BitVec.add_assoc, BitVec.add_sub_cancel]
  rw [State.afterFetching, hpc]

theorem begun_eq_fetched {s : State} {i : Instr} {rest : List Byte} (h : decode (s.answers 4 s.pc) = .ok (i, rest)) :
    (fetch s).1 = i ∧ s.begun = s.fetched i := by
  obtain ⟨-, hf⟩ := fetchWith_decStart h
  rw [State.begun, fetch, hf, State.afterFetching_instr]
  exact ⟨rfl, rfl⟩

/-- What a fetch comes to is well formed. -/
theorem fetch_wf (s : State) : (fetch s).1.wf = true := by
  obtain ⟨i, rest, hd, -⟩ := everyByteSequenceDecodes _ _ _ _ []
  obtain ⟨hw, hf⟩ := fetchWith_decStart (s := s) hd
  exact (congrArg (fun p : Instr × State => p.1.wf) hf).trans hw

/-! ### The kinds of step (rules R603, R609) -/

theorem State.takesNmi_iff (s : State) : s.takesNmi = true ↔ s.nmiPending = true ∧ s.shadow ≠ .all := by
  simp [State.takesNmi]

theorem State.takesInt_iff (s : State) :
    s.takesInt = true ↔ s.intLine = true ∧ s.iff1 = true ∧ s.shadow = .none := by
  simp [State.takesInt, and_assoc]

/-- A latched NMI is taken unless a standalone index byte inhibits it. -/
theorem State.takesNmi_of_shadow {s : State} (h : s.shadow ≠ .all) : s.takesNmi = s.nmiPending := by
  simp [State.takesNmi, h]

theorem State.takesNmi_of_all {s : State} (h : s.shadow = .all) : s.takesNmi = false := by
  simp [State.takesNmi, h]

theorem State.takesInt_of_shadow {s : State} (h : s.shadow ≠ .none) : s.takesInt = false := by
  simp [State.takesInt, h]

theorem State.takesInt_of_enabled {s : State} (he : s.iff1 = true) (h : s.shadow = .none) :
    s.takesInt = s.intLine := by
  simp [State.takesInt, he, h]

theorem step_of_takesNmi {s : State} (h : s.takesNmi = true) : step s = .next (acceptNmi s) := if_pos h

/-- A maskable request is taken where it is enabled, nothing is inhibited and no NMI is latched. -/
theorem step_of_takesInt {s : State} (hn : s.nmiPending = false) (hl : s.intLine = true) (he : s.iff1 = true)
    (hs : s.shadow = .none) : step s = acceptInt s := by
  have hn' : s.takesNmi = false := (State.takesNmi_of_shadow (by simp [hs])).trans hn
  rw [step, hn', if_neg Bool.false_ne_true, if_pos (s.takesInt_iff.2 ⟨hl, he, hs⟩)]

theorem step_runsInstruction {s : State} (h : s.runsInstruction = true) : step s = exec (fetch s).1 s.begun := by
  simp only [State.runsInstruction, Bool.and_eq_true, Bool.not_eq_true'] at h
  obtain ⟨⟨hn, hi⟩, hh⟩ := h
  rw [step, hn, hi, hh]
  rfl

/-- Settles O5: a step runs what it has fetched, and a fetch is a decode of the answers. -/
theorem stepRunsDecodedInstruction : Obligations.StepRunsDecodedInstruction := by
  intro s i rest hr hd
  obtain ⟨hi, hs⟩ := begun_eq_fetched hd
  rw [step_runsInstruction hr, hi, hs]

/-! ### Refusals (rules R600, R601) -/

/-- A well-formed instruction is never refused. -/
theorem exec_next_of_wf {i : Instr} (h : i.wf = true) (s : State) : ∃ t, exec i s = .next t := by
  cases i with
  | prefixIgnored x base =>
    obtain ⟨t, -, hb⟩ := exec_and_execBase_of_ignoresPrefix h s
    exact ⟨t.cost 4, congrArg (Result.addCost 4) hb⟩
  | _ => exact ⟨_, rfl⟩

/-- Only an acceptance of a maskable request can be refused. -/
theorem takesInt_of_refused {s : State} {q : Refusal} (h : step s = .refused q) :
    s.takesNmi = false ∧ s.takesInt = true := by
  cases hn : s.takesNmi with
  | true => exact nomatch h.symm.trans (step_of_takesNmi hn)
  | false =>
    cases hi : s.takesInt with
    | true => exact ⟨rfl, rfl⟩
    | false =>
      cases hh : s.halted with
      | true => exact nomatch h.symm.trans (step_halted hh hn hi)
      | false =>
        have hr : s.runsInstruction = true := by simp [State.runsInstruction, hn, hi, hh]
        obtain ⟨t, ht⟩ := exec_next_of_wf (fetch_wf s) s.begun
        exact nomatch h.symm.trans ((step_runsInstruction hr).trans ht)

/-- An acceptance is refused in mode 0 alone, and there exactly for a byte that is no RST opcode (rule R606). -/
theorem acceptInt_refused_iff (s : State) (q : Refusal) : acceptInt s = .refused q ↔
    s.im = .im0 ∧ s.intAckByte &&& 0xC7 ≠ 0xC7 ∧ q = .mode0AckNotRst s.intAckByte := by
  cases him : s.im with
  | im0 =>
    by_cases hr : s.intAckByte &&& 0xC7 = 0xC7
    · rw [acceptInt_im0_rst him (decide_eq_true hr)]
      exact ⟨nofun, fun ⟨_, hne, _⟩ => absurd hr hne⟩
    · rw [acceptInt_im0_other him (decide_eq_false hr)]
      exact ⟨fun h => ⟨rfl, hr, (Host.Outcome.refused.inj h).symm⟩, fun ⟨_, _, hq⟩ => congrArg _ hq.symm⟩
  | im1 => simp [acceptInt_im1 him]
  | im2 => simp [acceptInt_im2 him]

theorem step_refused_iff (s : State) (q : Refusal) : step s = .refused q ↔
    s.nmiPending = false ∧ s.intLine = true ∧ s.iff1 = true ∧ s.shadow = .none ∧ acceptInt s = .refused q := by
  constructor
  · intro h
    obtain ⟨hn, hi⟩ := takesInt_of_refused h
    obtain ⟨hl, he, hs⟩ := s.takesInt_iff.1 hi
    have hp : s.nmiPending = false := (State.takesNmi_of_shadow (by simp [hs])).symm.trans hn
    exact ⟨hp, hl, he, hs, (step_of_takesInt hp hl he hs).symm.trans h⟩
  · rintro ⟨hp, hl, he, hs, h⟩
    exact (step_of_takesInt hp hl he hs).trans h

/-- A refused step sets the mark and changes nothing else. -/
theorem Session.execute_of_refused {k : Session} {q : Refusal} (h : step k.core = .refused q) :
    k.execute = { k with refused := true } := by
  rw [Session.execute, h]

/-- An execute call goes on to the next state, or sets the mark. -/
theorem Session.execute_cases (k : Session) :
    (∃ t, step k.core = .next t ∧ k.execute = { k with core := t }) ∨ k.execute = { k with refused := true } := by
  cases h : step k.core with
  | next t => exact .inl ⟨t, rfl, Session.execute_next k t h⟩
  | fault x => exact nomatch x
  | refused q => exact .inr (Session.execute_of_refused h)

/-- No step clears the mark. -/
theorem Session.execute_refused {k : Session} (h : k.refused = true) : k.execute.refused = true := by
  obtain ⟨t, -, he⟩ | he := k.execute_cases
  · rw [he]
    exact h
  · rw [he]

/-- No interaction touches the mark. -/
theorem Session.acts_refused (xs : List DriverAction) (k : Session) : (xs.foldl Session.act k).refused = k.refused := by
  induction xs generalizing k with
  | nil => rfl
  | cons x xs ih => exact ih (k.act x)

theorem Session.run_refused (xs : List (List DriverAction)) {k : Session} (h : k.refused = true) :
    (k.run xs).refused = true := by
  induction xs generalizing k with
  | nil => exact h
  | cons x xs ih => exact ih (Session.execute_refused ((Session.acts_refused x k).trans h))

/-- Settles O6: there is no fault to answer, fetched instructions are well formed and complete, and an acceptance is
refused for its acknowledge byte only. -/
theorem stepFaultsNeverAndRefusesOnce : Obligations.StepFaultsNeverAndRefusesOnce :=
  ⟨fun _ x => (nomatch x),
   fun s q => by rw [step_refused_iff, acceptInt_refused_iff],
   fun _ _ => Session.execute_of_refused,
   fun _ xs => Session.run_refused xs⟩

end Sys2Proof.Machine

/-! Taking an interrupt and returning from one (60_exceptions.md): what an acceptance changes, costs and calls, and
where it goes. -/

namespace Sys2Proof.Machine

/-! ### What an acceptance changes (rules R604, R605, R610) -/

/-- A place that is as it was need not be named. -/
theorem Within.unname {k : Footprint} {s t : State} (h : Within k s t) {p : Place} (hp : t.look p = s.look p) :
    Within { k with places := k.places.filter (· ≠ p) } s t := by
  obtain ⟨hc, hk, hrest⟩ := h
  refine ⟨hc, fun q hq => ?_, hrest⟩
  by_cases hqp : q = p
  · rw [hqp, hp]
  · exact hk q (by simpa [hqp] using hq)

theorem State.setNmiPending_within (s : State) (b : Bool) :
    Within { cost := 0, places := [.nmiPending] } s { s with nmiPending := b } := by
  refine ⟨rfl, fun p hp => ?_, .of_eq rfl _, ⟨rfl, rfl⟩, rfl⟩
  cases p with
  | nmiPending => exact absurd (by decide) hp
  | _ => rfl

/-- NMI acceptance keeps IFF2. -/
theorem acceptNmi_within {s : State} (hw : Memory.wf s.bus.ram = true) :
    Within { cost := 11, places := [.halted, .iff1, .r, .sp, .pc, .nmiPending, .shadow], stores := s.pushStores
             calls := s.pushCalls s.pc } s (acceptNmi s) ∧
      Pushed s (acceptNmi s) s.pc ∧ AdvancesR 1 s (acceptNmi s) := by
  obtain ⟨hk, hpushed, hr⟩ := State.enterHandler_within hw s.iff2 fun _ => 0x0066
  have hk' := (hk.unname (p := .iff2) rfl).comp (State.setNmiPending_within _ false)
  have hplaces : ∀ p, p ∈ [Place.halted, .iff1, .r, .sp, .pc, .shadow, .nmiPending] →
      p ∈ [Place.halted, .iff1, .r, .sp, .pc, .nmiPending, .shadow] := by decide
  exact ⟨.charge (hk'.weaken rfl hplaces (by simp) rfl), hpushed, hr⟩

/-- Maskable acceptance is from a state with nothing inhibited, and leaves it so. -/
theorem enterHandler_within_of_noShadow {s : State} (hw : Memory.wf s.bus.ram = true) (hs : s.shadow = .none)
    (g : State → Word) :
    Within { cost := 0, places := [.halted, .iff1, .iff2, .r, .sp, .pc], stores := s.pushStores
             calls := s.pushCalls s.pc } s (s.enterHandler false g) ∧
      Pushed s (s.enterHandler false g) s.pc ∧ AdvancesR 1 s (s.enterHandler false g) := by
  obtain ⟨hk, hrest⟩ := State.enterHandler_within hw false g
  exact ⟨hk.unname (p := .shadow) (congrArg Shadow.number hs.symm), hrest⟩

/-- Settles O7: a latched request is taken unless a standalone index byte inhibits it. -/
theorem nmiAcceptance : Obligations.NmiAcceptance := fun s hw hn hs =>
  have ⟨hk, hpushed, hr⟩ := acceptNmi_within hw
  ⟨acceptNmi s, step_of_takesNmi (s.takesNmi_iff.2 ⟨hn, hs⟩), hk, rfl, rfl, hr, hpushed, rfl, rfl, rfl⟩

/-! ### The handler's address (rules R606 to R608) -/

theorem isRst_op8 : ∀ p : BitVec 3, isRst (op8 3 p 7) = true := by decide

theorem rst_handler_toNat : ∀ p : BitVec 3, ((op8 3 p 7 &&& 0x38).setWidth 16 : Word).toNat = 8 * p.toNat := by decide

/-- In mode 1, and in mode 0 with an RST opcode, the handler is at a fixed address. -/
theorem acceptInt_fixed {s : State} {p : BitVec 3}
    (h : s.im = .im1 ∧ p = 7 ∨ s.im = .im0 ∧ s.intAckByte = op8 3 p 7) :
    ∃ a : Word, acceptInt s = .next ((s.enterHandler false fun _ => a).cost 13) ∧ a.toNat = 8 * p.toNat := by
  obtain ⟨him, rfl⟩ | ⟨him, hack⟩ := h
  · exact ⟨_, acceptInt_im1 him, rfl⟩
  · exact ⟨_, acceptInt_im0_rst him (hack ▸ isRst_op8 p), by rw [hack, rst_handler_toNat]⟩

/-- Settles O8: an acceptance whose handler's address is known before the push. -/
theorem intAcceptanceAtFixedAddress : Obligations.IntAcceptanceAtFixedAddress := by
  intro s p hw hn hl he hs hmode
  obtain ⟨a, ha, hp⟩ := acceptInt_fixed hmode
  obtain ⟨hk, hpushed, hr⟩ := enterHandler_within_of_noShadow hw hs fun _ => a
  exact ⟨_, (step_of_takesInt hn hl he hs).trans ha, hk.charge, rfl, rfl, rfl, hr, hpushed, hp⟩

theorem State.vectorAddress_eq {s : State} {v : Word} (hv : v.toNat = s.i.toNat * 256 + s.intAckByte.toNat) :
    s.vectorAddress = v :=
  BitVec.eq_of_toNat_eq ((w16_toNat s.i s.intAckByte).trans hv.symm)

/-- On plain RAM the two reads of a word answer the bytes that lie there. -/
theorem State.afterReadWord_within_plain {s : State} {a : Word} (h : s.bus.isForeign a = false)
    (h' : s.bus.isForeign (a + 1) = false) :
    Within { cost := 0, calls := [.readByte (a + 1) (s.bus.ramByte (a + 1)), .readByte a (s.bus.ramByte a)] } s
      (s.afterReadWord a) := by
  have hcalls : s.wordCalls a = [.readByte (a + 1) (s.bus.ramByte (a + 1)), .readByte a (s.bus.ramByte a)] :=
    congrArg₂ (fun x y => [BusCall.readByte (a + 1) x, .readByte a y]) (Bus.memAnswer_plain (b := s.bus.called _) h')
      (Bus.memAnswer_plain h)
  exact hcalls ▸ s.afterReadWord_within a

/-- Settles O9: the vector is read where the push has been made, on plain RAM. -/
theorem intAcceptanceThroughVector : Obligations.IntAcceptanceThroughVector := by
  intro s v hw hn hl he hs him hv hf hf'
  have ha := acceptInt_im2 him
  rw [State.vectorAddress_eq hv] at ha
  obtain ⟨hk, hpushed, hr⟩ := enterHandler_within_of_noShadow hw hs fun s1 => s1.memWord v
  have hk' := hk.comp (State.afterReadWord_within_plain hf hf')
  exact ⟨_, (step_of_takesInt hn hl he hs).trans ha, hk'.charge, rfl, rfl, rfl, hr, hpushed,
    State.memWord_plain hf hf'⟩

/-! ### Returning (rules R522, R523, R611) -/

/-- Settles O12: the word popped is the one the acceptance pushed, and IFF2, which it kept, is what IFF1 was. -/
theorem returnFromNmiRestores : Obligations.ReturnFromNmiRestores := by
  intro s t u i hw hiff hn hst hi hf hf' hsp hiff2 hforeign hhigh hlow
  obtain rfl : acceptNmi s = t := Host.Outcome.next.inj ((step_of_takesNmi hn).symm.trans hst)
  obtain ⟨-, ⟨hsp', high, low⟩, -⟩ := acceptNmi_within hw
  have hu : u.sp = s.sp - 2 := hsp.trans hsp'
  have e : s.sp - 2 + 1 = s.sp - 1 := by bv_omega
  have hword : u.bus.ramWord (s.sp - 2) = s.pc := Bus.ramWord_eq (hlow.trans (low hf')) (e ▸ hhigh.trans (high hf))
  have plain (a : Word) : u.bus.isForeign a = s.bus.isForeign a :=
    congrArg (fun r : List (Nat × Nat) => r.any (inRange a)) hforeign
  have hpop : u.popWord = s.pc := by
    rw [State.popWord, hu, State.memWord_plain ((plain _).trans hf') (e ▸ (plain _).trans hf), hword]
  have he : exec i u = .next (u.returnFromInterrupt.cost 14) := by
    obtain rfl | ⟨y, rfl⟩ := hi <;> rfl
  exact ⟨_, he, hpop, by rw [State.cost_sp, State.returnFromInterrupt_sp, hu, BitVec.sub_add_cancel],
    hiff2.trans hiff.symm⟩

end Sys2Proof.Machine

/-! The host of the core (70_reset_and_hazards.md): reset, the inhibit latch, what runs keep, and construction. -/

namespace Sys2Proof.Machine

/-! ### Reset (rules R700, R701) -/

/-- Settles O14: RAM is empty, the decode state Base, and nothing is enabled, halted or inhibited. -/
theorem resetMeetsInvariant : Obligations.ResetMeetsInvariant := ⟨Memory.wf_reset, rfl, nofun, nofun, nofun⟩

/-- After a reset nothing is latched, enabled or halted. -/
theorem State.hostReset_runsInstruction (s : State) (regs : ResetRegs) :
    (s.hostReset regs).runsInstruction = true := by
  simp [State.runsInstruction, State.takesNmi, State.takesInt, State.hostReset]

/-- Settles O59: the items are those of the definition, and the next step runs an instruction. -/
theorem resetOperation : Obligations.ResetOperation :=
  ⟨fun s regs => ⟨rfl, rfl, rfl, rfl, rfl, rfl, rfl, rfl, rfl, rfl, rfl, rfl, rfl, rfl, rfl, rfl, rfl, rfl, rfl,
     rfl, s.hostReset_runsInstruction regs⟩,
   fun _ => ⟨rfl, rfl⟩⟩

/-! ### The inhibit latch (rules R706, R707) -/

/-- EI enables maskable requests and sets the latch if it has the delay (rule R378); the requests stay. -/
theorem state_after_ei {s t : State} (h : exec .ei s = .next t) :
    t.iff1 = true ∧ t.shadow = (if s.eiDelay then .int else s.shadow) ∧ t.nmiPending = s.nmiPending ∧
      t.intLine = s.intLine := by
  cases h
  exact ⟨rfl, rfl, rfl, rfl⟩

/-- A standalone index byte sets the latch against every request (rule R387). -/
theorem shadow_after_indexByte {s t : State} {x : Idx}
    (h : exec (.prefixThenIndex x) s = .next t ∨ exec (.prefixThenEd x) s = .next t) : t.shadow = .all := by
  obtain h | h := h
  all_goals
    cases h
    rfl

/-- Settles O11: the latch after EI is `int` or as it was, and after a standalone index byte `all`. -/
theorem shadowsInhibitRequests : Obligations.ShadowsInhibitRequests := by
  refine ⟨fun s t hd h => ?_, fun s t hd hs h => ?_, fun s t x h => ?_⟩
  · obtain ⟨-, hshadow, hnmi, -⟩ := state_after_ei h
    rw [hd, if_pos rfl] at hshadow
    exact ⟨State.takesInt_of_shadow (by simp [hshadow]), (State.takesNmi_of_shadow (by simp [hshadow])).trans hnmi⟩
  · obtain ⟨hiff, hshadow, -, hline⟩ := state_after_ei h
    rw [hd, if_neg Bool.false_ne_true, hs] at hshadow
    exact (State.takesInt_of_enabled hiff hshadow).trans hline
  · have hshadow := shadow_after_indexByte h
    exact ⟨State.takesInt_of_shadow (by simp [hshadow]), State.takesNmi_of_all hshadow⟩

/-! ### Runs (rules R716, R718) -/

/-- No interaction breaks the invariant: a reset establishes it anew, a byte stored keeps the canonical form, and the
others write nothing it is about. -/
theorem DriverAction.apply_inv (regs : ResetRegs) (x : DriverAction) {s : State} (h : s.Inv) :
    (x.apply regs s).Inv := by
  cases x with
  | setInt | latchNmi | zeroCounter | setPort => exact ⟨h.ram, h.decode, h.backup, h.halted, h.afterEi⟩
  | reset => exact ⟨h.ram, rfl, nofun, nofun, nofun⟩
  | pokeMem a v => exact ⟨Bus.wf_poke h.ram, h.decode, h.backup, h.halted, h.afterEi⟩

theorem Session.acts_inv (xs : List DriverAction) {k : Session} (h : k.core.Inv) :
    (xs.foldl Session.act k).core.Inv := by
  induction xs generalizing k with
  | nil => exact h
  | cons x xs ih => exact ih (x.apply_inv k.resetRegs h)

/-- A refused step leaves the core as it is. -/
theorem Session.execute_inv {k : Session} (h : k.core.Inv) : k.execute.core.Inv := by
  obtain ⟨t, ht, he⟩ | he := k.execute_cases
  · rw [he]
    exact stepKeepsInvariant k.core t h ht
  · rw [he]
    exact h

/-- Settles O15: step by step, with any interactions before each. -/
theorem runKeepsInvariant : Obligations.RunKeepsInvariant := by
  refine ⟨fun s regs x => x.apply_inv regs, fun k xs h => ?_⟩
  induction xs generalizing k with
  | nil => exact h
  | cons x xs ih => exact ih _ (Session.execute_inv (Session.acts_inv x h))

/-! ### Construction (rules R702, R704) -/

/-- The registers of a record, narrowed. -/
def BankRecord.narrow (k : BankRecord) : RegBank :=
  ⟨.ofNat 8 k.a, .ofNat 8 k.f, .ofNat 8 k.b, .ofNat 8 k.c, .ofNat 8 k.d, .ofNat 8 k.e, .ofNat 8 k.h, .ofNat 8 k.l⟩

/-- The nineteen registers of a record, narrowed. -/
def ResetRecord.narrow (k : ResetRecord) : ResetRegs :=
  ⟨k.main.narrow, k.alt.narrow, .ofNat 16 k.ix, .ofNat 16 k.iy, .ofNat 16 k.sp⟩

/-- A `resetRegs` as a record. -/
def ResetRegs.record (k : ResetRegs) : ResetRecord :=
  ⟨k.main.record, k.alt.record, k.ix.toNat, k.iy.toNat, k.sp.toNat⟩

/-- The state of a record, every field with a width narrowed, with the mode given. -/
def StateRecord.narrow (bus : Bus) (eiDelay : Bool) (im : IntMode) (k : StateRecord) : State where
  main := k.regs.main.narrow
  alt := k.regs.alt.narrow
  ix := .ofNat 16 k.regs.ix
  iy := .ofNat 16 k.regs.iy
  sp := .ofNat 16 k.regs.sp
  pc := .ofNat 16 k.pc
  i := .ofNat 8 k.i
  r := .ofNat 8 k.r
  iff1 := k.iff1
  iff2 := k.iff2
  im := im
  halted := k.halted
  shadow := k.shadow
  nmiPending := k.nmiPending
  intLine := k.intLine
  intAckByte := .ofNat 8 k.intAckByte
  tstates := k.tstates
  decode := .base
  eiDelay := eiDelay
  bus := bus

/-! ### What construction answers: the error of the first misfit, or the fields narrowed -/

theorem construct_eq (bus : Bus) (delay : Bool) (k : ResetRecord) : construct bus delay k =
    match k.fields.find? (fun x => !x.fits) with
    | some y => .error (.invalidRegisterValue y.name)
    | none => .ok (({ State.reset with bus := bus, eiDelay := delay } : State).hostReset k.narrow) := by
  simp only [construct, ResetRecord.check_eq]
  cases k.fields.find? _ <;> rfl

theorem constructFrom_eq (bus : Bus) (delay : Bool) {k : StateRecord} {m : IntMode} (hm : checkMode k.im = .ok m) :
    constructFrom bus delay k =
      match k.fields.find? (fun x => !x.fits) with
      | some y => .error (.invalidRegisterValue y.name)
      | none => .ok (k.narrow bus delay m) := by
  simp only [constructFrom, hm, ResetRecord.check_eq, checkWidth_eq, StateRecord.fields, List.find?_append]
  cases k.regs.fields.find? _ <;> try rfl
  simp only [List.find?]
  cases (RecordField.mk "PC" 16 k.pc).fits <;> try rfl
  cases (RecordField.mk "I" 8 k.i).fits <;> try rfl
  cases (RecordField.mk "R" 8 k.r).fits <;> try rfl
  cases (RecordField.mk "intAckByte" 8 k.intAckByte).fits <;> rfl

/-! ### The interrupt modes are the numbers up to 2 (rule R50) -/

theorem checkMode_number (m : IntMode) : checkMode m.number = .ok m := by
  cases m <;> rfl

theorem exists_mode_of_le : ∀ {n : Nat}, n ≤ 2 → ∃ m : IntMode, m.number = n
  | 0, _ => ⟨.im0, rfl⟩
  | 1, _ => ⟨.im1, rfl⟩
  | 2, _ => ⟨.im2, rfl⟩

theorem checkMode_of_lt : ∀ {n : Nat}, 2 < n → checkMode n = .error (.invalidInterruptMode n)
  | _ + 3, _ => rfl

theorem State.record_im (s : State) : s.record.im = s.im.number := by
  unfold State.record IntMode.number
  cases s.im <;> rfl

/-! ### Records that fit and records of states -/

/-- A value that fits is kept by narrowing. -/
theorem toNat_ofNat_of_fits {name : String} {w v : Nat} (h : (RecordField.mk name w v).fits = true) :
    (BitVec.ofNat w v).toNat = v :=
  (BitVec.toNat_ofNat v w).trans (Nat.mod_eq_of_lt (of_decide_eq_true h))

@[simp] theorem RecordField.fits_toNat (name : String) {w : Nat} (v : BitVec w) :
    (RecordField.mk name w v.toNat).fits = true :=
  decide_eq_true v.isLt

theorem BankRecord.record_narrow {mark : String} {k : BankRecord} (h : ∀ x ∈ k.fields mark, x.fits = true) :
    k.narrow.record = k := by
  simp only [BankRecord.fields, List.forall_mem_cons] at h
  obtain ⟨ha, hf, hb, hc, hd, he, hh, hl, -⟩ := h
  simp only [BankRecord.narrow, RegBank.record, toNat_ofNat_of_fits ha, toNat_ofNat_of_fits hf, toNat_ofNat_of_fits hb,
    toNat_ofNat_of_fits hc, toNat_ofNat_of_fits hd, toNat_ofNat_of_fits he, toNat_ofNat_of_fits hh,
    toNat_ofNat_of_fits hl]

theorem RegBank.narrow_record (k : RegBank) : k.record.narrow = k := by
  simp [BankRecord.narrow, RegBank.record]

theorem RegBank.record_fits (mark : String) (k : RegBank) : ∀ x ∈ k.record.fields mark, x.fits = true := by
  simp [BankRecord.fields, RegBank.record]

theorem ResetRecord.record_narrow {k : ResetRecord} (h : ∀ x ∈ k.fields, x.fits = true) : k.narrow.record = k := by
  simp only [ResetRecord.fields, List.forall_mem_append, List.forall_mem_cons] at h
  obtain ⟨⟨hmain, halt⟩, hx, hy, hs, -⟩ := h
  simp only [ResetRecord.narrow, ResetRegs.record, BankRecord.record_narrow hmain, BankRecord.record_narrow halt,
    toNat_ofNat_of_fits hx, toNat_ofNat_of_fits hy, toNat_ofNat_of_fits hs]

theorem ResetRegs.narrow_record (k : ResetRegs) : k.record.narrow = k := by
  simp [ResetRecord.narrow, ResetRegs.record, RegBank.narrow_record]

theorem ResetRegs.record_fits (k : ResetRegs) : ∀ x ∈ k.record.fields, x.fits = true := by
  simp only [ResetRecord.fields, List.forall_mem_append]
  exact ⟨⟨k.main.record_fits "", k.alt.record_fits "'"⟩, by simp [ResetRegs.record]⟩

theorem StateRecord.record_narrow {bus : Bus} {delay : Bool} {m : IntMode} {k : StateRecord} (hm : m.number = k.im)
    (h : ∀ x ∈ k.fields, x.fits = true) : (k.narrow bus delay m).record = k := by
  simp only [StateRecord.fields, List.forall_mem_append, List.forall_mem_cons] at h
  obtain ⟨hregs, hpc, hi, hr, hack, -⟩ := h
  have hk : (k.narrow bus delay m).record =
      { k with
        regs := k.regs.narrow.record, pc := (BitVec.ofNat 16 k.pc).toNat, i := (BitVec.ofNat 8 k.i).toNat
        r := (BitVec.ofNat 8 k.r).toNat, im := m.number, intAckByte := (BitVec.ofNat 8 k.intAckByte).toNat } := by
    cases m <;> rfl
  rw [hk, hm, ResetRecord.record_narrow hregs, toNat_ofNat_of_fits hpc, toNat_ofNat_of_fits hi, toNat_ofNat_of_fits hr,
    toNat_ofNat_of_fits hack]

theorem State.narrow_record {s : State} (h : s.decode = .base) : s.record.narrow s.bus s.eiDelay s.im = s := by
  simp [StateRecord.narrow, State.record, RegBank.narrow_record, ← h]

theorem State.record_fits (s : State) : ∀ x ∈ s.record.fields, x.fits = true := by
  simp only [StateRecord.fields, List.forall_mem_append]
  exact ⟨ResetRegs.record_fits ⟨s.main, s.alt, s.ix, s.iy, s.sp⟩, by simp [State.record]⟩

/-- Settles O60: `construct_eq` and `constructFrom_eq` say what is answered, and records and states are given back. -/
theorem constructionErrors : Obligations.ConstructionErrors := by
  refine ⟨fun bus delay k => ⟨fun h => ?_, fun h => .of_first fun y hy => ?_, fun h hfits => ?_⟩, fun s h => ?_,
    fun bus delay k => .of_first fun y hy => ?_, fun bus delay regs => ?_⟩
  · rw [constructFrom, checkMode_of_lt h]
    rfl
  · obtain ⟨m, hm⟩ := exists_mode_of_le h
    rw [constructFrom_eq bus delay (hm ▸ checkMode_number m), hy]
  · obtain ⟨m, hm⟩ := exists_mode_of_le h
    refine ⟨k.narrow bus delay m, ?_, StateRecord.record_narrow hm hfits, rfl, rfl, rfl⟩
    rw [constructFrom_eq bus delay (hm ▸ checkMode_number m), find_misfit_none hfits]
  · rw [constructFrom_eq s.bus s.eiDelay (s.record_im ▸ checkMode_number s.im), find_misfit_none s.record_fits,
      State.narrow_record h]
  · rw [construct_eq, hy]
  · show construct bus delay regs.record = _
    rw [construct_eq, find_misfit_none regs.record_fits, ResetRegs.narrow_record]

end Sys2Proof.Machine
